-- ==== Sys2Proof/Word.lean ====
section
/-!
DEFINITION. The widths of the block (spec/00_scope.md R7, spec/10_state.md R32 to R45): names for
the bit vectors that the spec calls registers, operands and entries. Every one is unsigned (R9).
-/

namespace Sys2Proof

/-- An operation word, 64 bits (R99). -/
abbrev OpWord := BitVec 64

/-- A timestamp in microseconds, `TS_W` = 32 bits (R7, R32). -/
abbrev Timestamp := BitVec 32

/-- An interval operand in units of 0.1 ms, `RX_IN_W` = 32 bits (R7, R90). -/
abbrev Interval := BitVec 32

/-- An index of `ring` or of `seq`, 6 bits, values 0..63 (R34, R35, R42, R60). -/
abbrev Index := BitVec 6

/-- One entry of `ring` or of `seq`, 8 bits (R33, R41). -/
abbrev Entry := BitVec 8

/-- One of the block's two arrays of 64 entries (R60): equal arrays are equal data (DEDUCED, log entry 6:
safe). -/
abbrev Table := Vector Entry 64

end Sys2Proof
end

