-- ==== Sys2Proof/Config.lean ====
section
/-!
DEFINITION. What a run fixes at its launch (the two OPEN parameters of spec/00_scope.md R7) and the
values the spec leaves unspecified at reset (spec/10_state.md R52). A draw has no body: nothing in
Lean can evaluate it, so what is proved holds for every draw.
-/

namespace Sys2Proof

/-- `CAPTURE_WINDOW_MODE` (R7, R131): which quantity EDGE's acceptance test reads. -/
inductive WindowMode where
  /-- The converted interval q, the default. -/
  | quotient
  /-- The difference d in microseconds. -/
  | microseconds
deriving DecidableEq, Repr

/-- The parameters the host sends at launch and cannot change during a run (R7, R242, R278). -/
structure Params where
  /-- `CAPTURE_WINDOW_MODE` (R131). -/
  captureWindowMode : WindowMode
  /-- `T_TICK`, the period of a timer tick in microseconds; no rule of the block reads it (R93, R275). -/
  tTick : Nat
deriving DecidableEq, Repr

/-- R7's defaults: the window mode `QUOTIENT`, the nominal tick period 1.0 ms (DESIGN CHOICE, log entry
5: safe for claims about every state, unsafe for a claim about `State.reset` alone). -/
def Params.nominal : Params := ⟨.quotient, 1000⟩

/-- The draw of `prev_ts` at reset number `n` (R52, decision D5): any 32-bit value
(DESIGN CHOICE, log entry 1: safe for claims about one run, unsafe for a comparison of two). -/
opaque Config.drawPrevTs (n : Nat) : Timestamp

/-- The draw of `ring[i]` at reset number `n` (R52, decision D6): any value
(DESIGN CHOICE, log entry 1). -/
opaque Config.drawRing (n i : Nat) : Entry

/-- The draw of `seq[i]` at reset number `n` (R52, decision D18): any value
(DESIGN CHOICE, log entry 1). -/
opaque Config.drawSeq (n i : Nat) : Entry

end Sys2Proof
end

