-- ==== Sys2Proof/Syntax.lean ====
section
/-!
DEFINITION. The operations of the block (spec/30_encoding.md R100), the refusal codes of its decoder
(spec/60_exceptions.md R261), and the lines of its assembler (R106, R108). What they mean is in
Machine/.
-/

namespace Sys2Proof

/-- The nine operation codes' names (R100). -/
inductive Operation where
  | edge | pop | rxstep | poll | drain | send | tick | status | reset
deriving DecidableEq, Repr

/-- The agents that issue operations (R277). -/
inductive Agent where
  /-- The input-edge interrupt. -/
  | edge
  /-- The periodic timer interrupt. -/
  | timer
  /-- The cooperative main context. -/
  | main
  /-- Device bring-up. -/
  | host
deriving DecidableEq, Repr

/-- The two payload classes of a message (R98): `length` 2 and `length` 4. -/
inductive PayloadClass where
  /-- 16 data bits. -/
  | two
  /-- 32 data bits. -/
  | four
deriving DecidableEq, Repr

/-- One constructor per row of spec/opcode_table.json: an operation with its operands. The table has
two rows for SEND, one per payload class, so SEND has two constructors. -/
inductive Instr where
  /-- EDGE (R135). -/
  | edge (ts : Timestamp)
  /-- POP (R136). -/
  | pop
  /-- RXSTEP (R161). -/
  | rxstep (interval : Interval)
  /-- POLL (R169). -/
  | poll
  /-- DRAIN (R170); as a step, its next iteration. -/
  | drain
  /-- SEND with `len = 2` (R200). -/
  | send2 (value : BitVec 32)
  /-- SEND with `len = 4` (R200). -/
  | send4 (value : BitVec 32)
  /-- TICK (R203). -/
  | tick
  /-- STATUS (R240). -/
  | status
  /-- RESET (R241). -/
  | reset
deriving DecidableEq, Repr

/-- Why the decoder refuses a word (R102, R261). -/
inductive RefusalCode where
  /-- `REFUSE_RESERVED_OP`, case (a). -/
  | reservedOp
  /-- `REFUSE_RESERVED_FIELD`, case (b). -/
  | reservedField
  /-- `REFUSE_SEND_LENGTH`, case (c). -/
  | sendLength
deriving DecidableEq, Repr

/-- An assembler line that names one operation (R106). Its numbers are as written, of any size. -/
inductive Line where
  | edge (ts : Nat)
  | pop
  | rxstep (interval : Nat)
  | poll
  | drain
  | send (len value : Nat)
  | tick
  | status
  | reset
deriving DecidableEq, Repr

/-- The pseudo-operations (R108), which an assembler expands and no word encodes. -/
inductive Pseudo where
  | ticks (n : Nat)
  | edges (t0 : Nat) (ds : List Nat)
  | rxframe (len value : Nat)
  | sendwait (len value : Nat)
deriving DecidableEq, Repr

/-- A line of assembler source: an operation or a pseudo-operation. -/
inductive SourceLine where
  | op (l : Line)
  | pseudo (p : Pseudo)
deriving DecidableEq, Repr

end Sys2Proof
end

