-- ==== Sys2Proof/Machine/State.lean ====
section
/-!
DEFINITION. The state of the block (spec/10_state.md R30 to R46, R52), the run around it (spec/
00_scope.md R12, spec/70_reset_and_hazards.md R315), and the reasons a step can stop. All of it is
plain data; the values after power-on are `State.reset` (R300).
-/

namespace Sys2Proof.Machine

/-- The two model faults (R261). An operation that raises one is not stopped here: it takes a next
state whose `fault` field records the code and the word. -/
inductive FaultCode where
  /-- `SEND_WHILE_BUSY` (R263). -/
  | sendWhileBusy
  /-- `RX_COUNT_WRAP` (R264). -/
  | rxCountWrap
deriving DecidableEq, Repr

/-- A fault record: the code and the operation word that raised it (R46, R261, R266). -/
structure FaultRecord where
  code : FaultCode
  word : OpWord
deriving DecidableEq, Repr

/-- The events of the output trace (R12). -/
inductive Event where
  /-- `FRAME(length, value)` (R171). -/
  | frame (length : BitVec 8) (value : BitVec 32)
  /-- `OUT(level)` (R203). -/
  | out (level : Bool)
  /-- `POPPED(opt)` (R136). -/
  | popped (opt : Option Interval)
  /-- `STATUSV(word)` (R240). -/
  | statusv (word : BitVec 32)
deriving DecidableEq, Repr

/-- A value that an operation gives back to the main agent (R11 `return`). -/
inductive Returned where
  /-- POP and POLL return an optional interval (R136, R169). -/
  | interval (opt : Option Interval)
  /-- STATUS returns the status word (R240). -/
  | status (word : BitVec 32)
deriving DecidableEq, Repr

/-- One turn of the run's total order (R76, R315; DESIGN CHOICE, log entry 2: safe for claims
about every schedule). -/
inductive Turn where
  /-- The agent that owns the word's operation code issues the word. -/
  | issue (w : OpWord)
  /-- The main agent takes the next iteration of the DRAIN it is running (R170). -/
  | resume
deriving DecidableEq, Repr

/-- Every piece of state of the block, of the model's bookkeeping (R46) and of the run around it. -/
structure State where
  /-- `prev_ts` (R32). -/
  prevTs : Timestamp
  /-- `ring[0..63]` (R33). -/
  ring : Table
  /-- `head` (R34). -/
  head : Index
  /-- `tail` (R35). -/
  tail : Index
  /-- `bits_expected` (R36). -/
  bitsExpected : BitVec 32
  /-- `bits_received` (R37). -/
  bitsReceived : BitVec 32
  /-- `data_length` (R38). -/
  dataLength : BitVec 8
  /-- `data` (R39). -/
  data : BitVec 32
  /-- `checksum` (R40). -/
  checksum : Bool
  /-- `seq[0..63]` (R41). -/
  seq : Table
  /-- `pos` (R42). -/
  pos : Index
  /-- `out_active` (R43). -/
  outActive : Bool
  /-- `remaining` (R44). -/
  remaining : BitVec 8
  /-- `timer_enabled` (R45). -/
  timerEnabled : Bool
  /-- `fault` (R46): the record of the first fault, none before it. -/
  fault : Option FaultRecord
  /-- `refused` (R46): the mark that some word was refused. -/
  refused : Bool
  /-- The codes of the refused words, in the order of the run (R265, R266; DESIGN CHOICE, log
  entry 3: safe). -/
  refusals : List RefusalCode
  /-- The output trace, oldest event first (R12). -/
  trace : List Event
  /-- The value most recently given back to the main agent (R11; DESIGN CHOICE, log entry 4:
  safe for the block, which never reads it). -/
  returned : Option Returned
  /-- The parameters of the launch (R7, R278; DESIGN CHOICE, log entry 5). -/
  params : Params
  /-- The turns of the run still to come (R315; DESIGN CHOICE, log entry 2). -/
  schedule : List Turn
  /-- The main agent is between two iterations of a DRAIN (R170; DESIGN CHOICE, log entry 11: unsafe
  for a RESET in the middle of a DRAIN). -/
  draining : Bool
  /-- How many resets have drawn their unspecified values; the MODEL's own field (DESIGN
  CHOICE, log entry 1: unsafe for a claim that reads it). -/
  draws : Nat
deriving DecidableEq, Repr

/-- Why a step has no next state. -/
inductive Fault where
  /-- Raised by `step` on a block whose `fault` holds a record: no agent has a step there, RESET
  included (R46, R277). The spec's own stop, so it is safe. -/
  | blockFaulted
  /-- Raised by the meaning of TICK while `timer_enabled = 0`: the timer agent has no step, the model
  is stuck (R204). The spec's own stop; it is safe but for log entry 9. -/
  | timerStopped
deriving DecidableEq, Repr

/-- Why an instruction has no meaning. -/
inductive Refusal where
  /-- Raised only by an arm of `exec` without a meaning. Safe: nothing can be proved of it. No arm
  raises it now: every operation has its meaning, and a word that the spec's decoder refuses takes a
  next state with the mark `refused` set (R261). -/
  | notModelled (mnemonic : String)
deriving DecidableEq, Repr

/-- The state after power-on with launch parameters `p` and the draws `prevTs`, `ring` and `seq`
(R52, R300): an empty trace, no fault, `refused` clear, no turn to take. -/
def State.powerOn (p : Params) (prevTs : Timestamp) (ring seq : Table) : State where
  prevTs := prevTs
  ring := ring
  head := 0
  tail := 0
  bitsExpected := 0
  bitsReceived := 0
  dataLength := 0
  data := 0
  checksum := false
  seq := seq
  pos := 0
  outActive := false
  remaining := 0
  timerEnabled := false
  fault := none
  refused := false
  refusals := []
  trace := []
  returned := none
  params := p
  schedule := []
  draining := false
  draws := 1

/-- The state right after power-on (R52, R300), with R7's default parameters. `prev_ts`, `ring` and
`seq` hold reset number 0's draws, of which nothing is known (DESIGN CHOICE, log entry 1). -/
def State.reset : State :=
  State.powerOn Params.nominal (Config.drawPrevTs 0)
    (Vector.ofFn fun i => Config.drawRing 0 i) (Vector.ofFn fun i => Config.drawSeq 0 i)

end Sys2Proof.Machine
end

