-- ==== Sys2Proof/Machine/Operands.lean ====
section
/-!
DEFINITION. What operations compute from their operands: the interval of an edge and its acceptance
(spec/40_capture.md R130, R131), the band of an interval (spec/30_encoding.md R91), and the playback
entries of a message (R92, spec/42_transmit.md R200).
-/

namespace Sys2Proof.Machine

/-- `d = (ts - prev_ts) mod 2^32`, the elapsed microseconds (R130). -/
def elapsed (ts prevTs : Timestamp) : Nat := (ts - prevTs).toNat

/-- `q = d div 100`, the interval in 0.1 ms units, truncated (R130, decision D3; log entry 12). -/
def intervalUnits (d : Nat) : Nat := d / 100

/-- `accept(d, q)` (R131). -/
def accept (mode : WindowMode) (d q : Nat) : Bool :=
  match mode with
  | .quotient => decide (10 < q ∧ q < 200)
  | .microseconds => decide (1000 < d ∧ d < 20000)

/-- The four interval classes (R91). -/
inductive Band where
  | start | zero | one | other
deriving DecidableEq, Repr

/-- `band(v)` (R91, R160), of an interval of any width. -/
def band (v : Nat) : Band :=
  if 50 < v ∧ v < 70 then .start
  else if 10 < v ∧ v < 30 then .zero
  else if 30 < v ∧ v < 50 then .one
  else .other

/-- The `len` operand of a payload class (R98). -/
def lenOf : PayloadClass → BitVec 8
  | .two => 2
  | .four => 4

/-- N, the number of data bits of a payload class: `8 * len` (R98, R200). -/
def dataBits : PayloadClass → Nat
  | .two => 16
  | .four => 32

/-- `bits_expected` of a payload class: the length bit, N data bits and the checksum bit (R94, R164). -/
def frameBits : PayloadClass → BitVec 32
  | .two => 18
  | .four => 34

/-- The payload class that a length bit selects (R96): a zero symbol 16 bits, a one symbol 32. -/
def classOfBit (b : Bool) : PayloadClass := if b then .four else .two

/-- The length bit of a payload class (R94). -/
def lengthBitOf : PayloadClass → Bool
  | .two => false
  | .four => true

/-- The tick count of a zero or one symbol (R92). -/
def symbolTicks (b : Bool) : Entry := if b then 4 else 2

/-- The tick count of the start marker (R92). -/
def startTicks : Entry := 6

/-- The sentinel that ends a sequence (R92). -/
def sentinel : Entry := 0

/-- The data entries of R200 step 3: `value[k-1]` down to `value[0]`, most significant bit first. -/
def dataEntries (value : BitVec 32) : Nat → List Entry
  | 0 => []
  | k + 1 => symbolTicks (value.getLsbD k) :: dataEntries value k

end Sys2Proof.Machine
end

