-- ==== Sys2Proof/WellFormed.lean ====
section
/-!
DEFINITION. Which assembler lines are well formed (spec/30_encoding.md R106): an assembler rejects a
line whose operand does not fit its field, or whose SEND length is not 2 or 4. An `Instr` needs no
check: each operand has its field's width and each payload class is a constructor of its own.
-/

namespace Sys2Proof

/-- The operand fits the 32-bit `arg` field (R99, R106). -/
def fitsArg (n : Nat) : Bool := decide (n < 2 ^ 32)

/-- The SEND length is 2 or 4 (R102 (c), R106). -/
def sendLengthOk (len : Nat) : Bool := len == 2 || len == 4

/-- R106: what an assembler accepts as one operation. -/
def Line.wellFormed : Line → Bool
  | .edge ts => fitsArg ts
  | .rxstep v => fitsArg v
  | .send len value => sendLengthOk len && fitsArg value
  | .pop | .poll | .drain | .tick | .status | .reset => true

/-- R108 with R106: what an assembler accepts as a pseudo-operation. R108 sets no bound on the d_i of
EDGES, which are used modulo 2^32, nor on their number: none is set here, and there may be no d_i at all
(DESIGN CHOICE, log entry 10). -/
def Pseudo.wellFormed : Pseudo → Bool
  | .ticks _ => true
  | .edges t0 _ => fitsArg t0
  | .rxframe len value => sendLengthOk len && fitsArg value
  | .sendwait len value => sendLengthOk len && fitsArg value

/-- R106, R108: what an assembler accepts as a line. -/
def SourceLine.wellFormed : SourceLine → Bool
  | .op l => l.wellFormed
  | .pseudo p => p.wellFormed

end Sys2Proof
end

