-- ==== Sys2Proof/Decode.lean ====
section
/-!
DEFINITION. The operation word (spec/30_encoding.md R99 to R104): its fields, the decoder, total on
every 64-bit word, which refuses by name, and after it the encoder.
-/

namespace Sys2Proof

/-- `w[63:56]`, the operation code (R99). -/
def opField (w : OpWord) : BitVec 8 := w.extractLsb' 56 8

/-- `w[55:40]`, reserved, must be 0 (R99). -/
def reservedField (w : OpWord) : BitVec 16 := w.extractLsb' 40 16

/-- `w[39:32]`, the payload class (R99). -/
def lenField (w : OpWord) : BitVec 8 := w.extractLsb' 32 8

/-- `w[31:0]`, the `arg` operand (R99, R101). -/
def argField (w : OpWord) : BitVec 32 := w.extractLsb' 0 32

/-- R100: the whole map of operation codes. -/
def opMap : List (BitVec 8 × Operation) :=
  [(0x01, .edge), (0x02, .pop), (0x03, .rxstep), (0x04, .poll), (0x05, .drain), (0x06, .send),
   (0x07, .tick), (0x08, .status), (0x09, .reset)]

/-- The operation an operation code selects; none for a reserved code (R100, R102 (a)). -/
def operationOf (op : BitVec 8) : Option Operation :=
  (opMap.find? fun row => row.1 == op).map (·.2)

/-- Only SEND uses the `len` field (R99). -/
def Operation.usesLen (o : Operation) : Bool := o == .send

/-- Only EDGE, RXSTEP and SEND use the `arg` field (R99). -/
def Operation.usesArg (o : Operation) : Bool := o == .edge || o == .rxstep || o == .send

/-- R102 (b): a reserved field, or a field the operation does not use, is not 0. -/
def unusedFieldSet (o : Operation) (w : OpWord) : Bool :=
  reservedField w != 0 || (!o.usesLen && lenField w != 0) || (!o.usesArg && argField w != 0)

/-- The operands of a word whose operation is known and whose unused fields are 0 (R101), or the
refusal of R102 (c). -/
def decodeOperands (o : Operation) (w : OpWord) : Except RefusalCode Instr :=
  match o with
  | .edge => .ok (.edge (argField w))
  | .pop => .ok .pop
  | .rxstep => .ok (.rxstep (argField w))
  | .poll => .ok .poll
  | .drain => .ok .drain
  | .send =>
    if lenField w = 2 then .ok (.send2 (argField w))
    else if lenField w = 4 then .ok (.send4 (argField w))
    else .error .sendLength
  | .tick => .ok .tick
  | .status => .ok .status
  | .reset => .ok .reset

/-- R104: every word decodes to one operation or is refused by the first of R102's cases (a), (b), (c)
that applies. -/
def decode (w : OpWord) : Except RefusalCode Instr :=
  match operationOf (opField w) with
  | none => .error .reservedOp
  | some o => if unusedFieldSet o w then .error .reservedField else decodeOperands o w

/-- The word `{op, 16'b0, len, arg}` (R99, R106). -/
def wordOf (op len : BitVec 8) (arg : BitVec 32) : OpWord := op ++ (0 : BitVec 16) ++ len ++ arg

/-- The one word of an operation (R99, R100, R106). -/
def encode : Instr → OpWord
  | .edge ts => wordOf 0x01 0 ts
  | .pop => wordOf 0x02 0 0
  | .rxstep v => wordOf 0x03 0 v
  | .poll => wordOf 0x04 0 0
  | .drain => wordOf 0x05 0 0
  | .send2 value => wordOf 0x06 2 value
  | .send4 value => wordOf 0x06 4 value
  | .tick => wordOf 0x07 0 0
  | .status => wordOf 0x08 0 0
  | .reset => wordOf 0x09 0 0

/-- The operation of an instruction (R100). -/
def Instr.operation : Instr → Operation
  | .edge _ => .edge
  | .pop => .pop
  | .rxstep _ => .rxstep
  | .poll => .poll
  | .drain => .drain
  | .send2 _ => .send
  | .send4 _ => .send
  | .tick => .tick
  | .status => .status
  | .reset => .reset

/-- The agent that issues an operation, fixed by its code (R100, R274, R277). -/
def Operation.agent : Operation → Agent
  | .edge => .edge
  | .tick => .timer
  | .reset => .host
  | .pop | .rxstep | .poll | .drain | .send | .status => .main

/-- The agent that issues a word, by its operation code; a reserved code belongs to none (R274). -/
def wordAgent (w : OpWord) : Option Agent := (operationOf (opField w)).map (·.agent)

/-- The refusal code's number (R261). -/
def RefusalCode.number : RefusalCode → BitVec 8
  | .reservedOp => 0x81
  | .reservedField => 0x82
  | .sendLength => 0x83

/-- The operation word whose low `nbits` bits are `w`, the bits above them 0; none where it is wider
than the 64 bits of an operation word. -/
def tableWord (nbits w : Nat) : Option OpWord :=
  if w % 2 ^ nbits < 2 ^ 64 then some (BitVec.ofNat 64 (w % 2 ^ nbits)) else none

/-- What the decoder reads from a word numbered as spec/opcode_table.json numbers it. -/
def decodeTableWord (nbits w : Nat) : Option Instr :=
  match tableWord nbits w with
  | none => none
  | some word =>
    match decode word with
    | .ok i => some i
    | .error _ => none

end Sys2Proof
end

