-- ==== Sys2Proof/Machine/Ops.lean ====
section
/-!
DEFINITION. The operations that meanings share: the pseudocode primitives of spec/00_scope.md R11
(emit, raise, refuse, return), the ring's push and pop (spec/40_capture.md R132, R133), the writes of
the playback sequence (spec/20_memory.md R62) and the output line (spec/60_exceptions.md R276).
-/

namespace Sys2Proof.Machine

/-- Entry `i` of an array; every 6-bit index selects one (R60, R61). -/
def entryAt (t : Table) (i : Index) : Entry := t[i.toNat]'i.isLt

/-- An array with entry `i` written (R60). -/
def withEntry (t : Table) (i : Index) (e : Entry) : Table := t.set i.toNat e i.isLt

/-- `(i + 1) AND 63` (R61). -/
def nextIndex (i : Index) : Index := (i + 1) &&& 63

/-- `emit E` (R11): the trace grows at its end. -/
def State.emit (e : Event) (s : State) : State := { s with trace := s.trace ++ [e] }

/-- `return v` (R11): the value goes back to the main agent (DESIGN CHOICE, log entry 4). -/
def State.giveBack (r : Returned) (s : State) : State := { s with returned := some r }

/-- The fault code's number (R261). -/
def FaultCode.number : FaultCode → BitVec 8
  | .sendWhileBusy => 0x01
  | .rxCountWrap => 0x02

/-- `raise Fault(code)` (R11, R261): TAKING AN EXCEPTION. The code and the word of the operation are
recorded and nothing else changes: no state is saved and control goes nowhere (R270). There is no
return from it (R271): a recorded fault is never cleared (R46). The state with the record is a next
state, and the run stops after it (DEDUCED, log entry 7: safe). The word is the one that encodes the
operation (DEDUCED, log entry 8: safe). -/
def State.raise (c : FaultCode) (w : OpWord) (s : State) : State := { s with fault := some ⟨c, w⟩ }

/-- `refuse(code)` (R11, R261, R265): the mark is set, the code recorded, and no register changes. -/
def State.refuse (c : RefusalCode) (s : State) : State :=
  { s with refused := true, refusals := s.refusals ++ [c] }

/-- `push(q)` (R132): write the entry, then advance `head`. It never reads `tail`. -/
def State.push (q : Nat) (s : State) : State :=
  { s with ring := withEntry s.ring s.head (BitVec.ofNat 8 q), head := nextIndex s.head }

/-- The consumer's half of `pop()` (R133): `tail` passes the entry. -/
def State.advanceTail (s : State) : State := { s with tail := nextIndex s.tail }

/-- `pop()` (R133): the oldest unread entry, zero-extended, and the state after taking it. -/
def State.pop (s : State) : Option (Interval × State) :=
  if s.head = s.tail then none else some ((entryAt s.ring s.tail).zeroExtend 32, s.advanceTail)

/-- The entries `es` written from index `i` up (R62). The block never forms an index above 35; one past
63 would be outside the array, and nothing is written there (DEDUCED, log entry 6: safe). -/
def writeEntries (t : Table) : Nat → List Entry → Table
  | _, [] => t
  | i, e :: es => if h : i < 64 then writeEntries (t.set i e h) (i + 1) es else t

/-- The output line driven to `level` (R43); `OUT(level)` is emitted exactly when the level changes
(decision D23). -/
def State.drive (level : Bool) (s : State) : State :=
  if s.outActive = level then s else { s with outActive := level }.emit (.out level)

end Sys2Proof.Machine
end

