-- ==== Sys2Proof/Machine/Flags.lean ====
section
/-!
DEFINITION. The block's flags (spec/10_state.md R47; the busy flag is `timer_enabled` itself): the
derived flag `rx_pending`, the running parity (R40, spec/42_transmit.md R202), and the status word made
of the flags (spec/43_control.md R240).
-/

namespace Sys2Proof.Machine

/-- `rx_pending = (head != tail)` (R47); it is not stored. -/
def State.rxPending (s : State) : Bool := s.head != s.tail

/-- The seed of the parity, 1 (R40, R97). -/
def paritySeed : Bool := true

/-- A parity with the bits `value[k-1]` down to `value[0]` folded in (R200 step 3). -/
def foldParity (value : BitVec 32) (p : Bool) : Nat → Bool
  | 0 => p
  | k + 1 => foldParity value (p ^^ value.getLsbD k) k

/-- The transmitted checksum bit of a message (R97, R202). -/
def checksumBit (c : PayloadClass) (value : BitVec 32) : Bool :=
  foldParity value paritySeed (dataBits c)

/-- `popcount(value[n-1:0])` (R10). -/
def popcountBelow (value : BitVec 32) : Nat → Nat
  | 0 => 0
  | n + 1 => (if value.getLsbD n then 1 else 0) + popcountBelow value n

/-- One bit of a status word. -/
def flagBit (b : Bool) : BitVec 1 := if b then 1 else 0

/-- The status word `zext_32({rx_pending, out_active, timer_enabled})` (R240). -/
def State.statusWord (s : State) : BitVec 32 :=
  (flagBit s.rxPending ++ flagBit s.outActive ++ flagBit s.timerEnabled : BitVec 3).zeroExtend 32

end Sys2Proof.Machine
end

