-- ==== Sys2Proof/Machine/Capture.lean ====
section
/-!
DEFINITION. Edge capture, the first family (spec/40_capture.md): EDGE and POP.
-/

namespace Sys2Proof.Machine

/-- EDGE (R135): `prev_ts` follows every edge; the interval is pushed if it is accepted (R131). -/
def execEdge (ts : Timestamp) (s : State) : Host.Outcome State Fault Refusal :=
  let d := elapsed ts s.prevTs
  let q := intervalUnits d
  let s1 := { s with prevTs := ts }
  .next (if accept s.params.captureWindowMode d q then s1.push q else s1)

/-- POP (R136): the result of the pop is emitted and given back, and goes nowhere else. -/
def execPop (s : State) : Host.Outcome State Fault Refusal :=
  match s.pop with
  | none => .next ((s.emit (.popped none)).giveBack (.interval none))
  | some (v, s1) => .next ((s1.emit (.popped (some v))).giveBack (.interval (some v)))

end Sys2Proof.Machine
end

