-- ==== Sys2Proof/Machine/Control.lean ====
section
/-!
DEFINITION. Status and reset, the fourth family (spec/43_control.md): STATUS and RESET.
-/

namespace Sys2Proof.Machine

/-- STATUS (R240): the status word is emitted and given back; no register changes. -/
def execStatus (s : State) : Host.Outcome State Fault Refusal :=
  .next ((s.emit (.statusv s.statusWord)).giveBack (.status s.statusWord))

/-- The registers at their reset values (R52, R241), the unspecified ones at the draws of the next
reset number (DESIGN CHOICE, log entry 1). The trace, the marks of R46, the parameters and the run
around the block are kept (for a DRAIN in progress, log entry 11: unsafe). -/
def State.resetRegisters (s : State) : State :=
  { s with
    prevTs := Config.drawPrevTs s.draws
    ring := Vector.ofFn fun i => Config.drawRing s.draws i
    head := 0
    tail := 0
    bitsExpected := 0
    bitsReceived := 0
    dataLength := 0
    data := 0
    checksum := false
    seq := Vector.ofFn fun i => Config.drawSeq s.draws i
    pos := 0
    remaining := 0
    outActive := false
    timerEnabled := false
    draws := s.draws + 1 }

/-- RESET (R241): the line falls to inactive, with its event if it was active, and every register takes
its reset value. -/
def execReset (s : State) : Host.Outcome State Fault Refusal :=
  .next (s.drive false).resetRegisters

end Sys2Proof.Machine
end

