-- ==== Sys2Proof/Machine/Receiver.lean ====
section
/-!
DEFINITION. The receiver state machine, the second family (spec/41_receiver.md): the body of RXSTEP,
one branch a definition, and RXSTEP, POLL and DRAIN over it.
-/

namespace Sys2Proof.Machine

/-- The START branch (R162): a hard resync. -/
def State.startMarker (s : State) : State :=
  { s with bitsExpected := 1, bitsReceived := 0, data := 0, checksum := paritySeed }

/-- The OTHER branch (R167): the partial reset. -/
def State.noise (s : State) : State := { s with bitsReceived := 0, data := 0 }

/-- The length bit (R164): it selects the frame's length and is folded into nothing. -/
def State.lengthBit (b : Bool) (s : State) : State :=
  { s with bitsExpected := frameBits (classOfBit b), dataLength := lenOf (classOfBit b) }

/-- The checksum bit (R165): a frame whose bit equals the running parity is emitted. -/
def State.checkBit (b : Bool) (s : State) : State :=
  if s.checksum = b then s.emit (.frame s.dataLength s.data) else s

/-- A data bit (R166): shifted into `data` and folded into `checksum`. -/
def State.dataBit (b : Bool) (s : State) : State :=
  { s with data := (s.data <<< 1) ||| (if b then 1 else 0), checksum := s.checksum ^^ b }

/-- The bit counter (R168). -/
def State.countBit (s : State) : State := { s with bitsReceived := s.bitsReceived + 1 }

/-- An interval in the ZERO or ONE band, carrying `b` (R161): ignored before the first start marker
(R163), a raise at the counter's end (R264), or else the branch that the count before it selects. -/
def State.bandBit (b : Bool) (s : State) : Except FaultCode State :=
  if s.bitsExpected = 0 then .ok s
  else if s.bitsReceived = 0xFFFFFFFF then .error .rxCountWrap
  else if s.bitsReceived = 0 then .ok (s.lengthBit b).countBit
  else if s.bitsReceived = s.bitsExpected - 1 then .ok (s.checkBit b).countBit
  else .ok (s.dataBit b).countBit

/-- The body of RXSTEP (R161): the receiver after one interval, or the fault it raises before it has
written anything. -/
def State.receive (v : Interval) (s : State) : Except FaultCode State :=
  match band v.toNat with
  | .start => .ok s.startMarker
  | .zero => s.bandBit false
  | .one => s.bandBit true
  | .other => .ok s.noise

/-- RXSTEP (R161). -/
def execRxstep (v : Interval) (s : State) : Host.Outcome State Fault Refusal :=
  match s.receive v with
  | .ok s1 => .next s1
  | .error c => .next (s.raise c (encode (.rxstep v)))

/-- What one pop and one receiver step come to (R169). -/
inductive Polled where
  /-- The ring was empty: nothing changed. -/
  | empty
  /-- `v` was popped and the receiver took it; `s` is the state after. -/
  | took (v : Interval) (s : State)
  /-- The receiver raised `c` on the popped interval; `s` keeps the pop's advance of `tail`. -/
  | raised (c : FaultCode) (s : State)

/-- One pop and one receiver step, the body POLL and DRAIN share (R169, R170). -/
def State.poll (s : State) : Polled :=
  match s.pop with
  | none => .empty
  | some (v, s1) =>
    match s1.receive v with
    | .ok s2 => .took v s2
    | .error c => .raised c s1

/-- POLL (R169). It emits no POPPED event. -/
def execPoll (s : State) : Host.Outcome State Fault Refusal :=
  match s.poll with
  | .empty => .next (s.giveBack (.interval none))
  | .took v s1 => .next (s1.giveBack (.interval (some v)))
  | .raised c s1 => .next (s1.raise c (encode .poll))

/-- DRAIN (R170), one iteration, which is one atomic step: it polls, and the DRAIN goes on until the
first empty pop. A raise ends it (DESIGN CHOICE, log entry 11). -/
def execDrain (s : State) : Host.Outcome State Fault Refusal :=
  match s.poll with
  | .empty => .next { s with draining := false }
  | .took _ s1 => .next { s1 with draining := true }
  | .raised c s1 => .next ({ s1 with draining := false }.raise c (encode .drain))

end Sys2Proof.Machine
end

