-- ==== Sys2Proof/Machine/Transmit.lean ====
section
/-!
DEFINITION. The transmit encoder and the playback scheduler, the third family (spec/42_transmit.md):
SEND in its two payload classes, and TICK.
-/

namespace Sys2Proof.Machine

/-- The playback sequence of a message (R200 steps 1 to 5, R201). -/
def playback (c : PayloadClass) (value : BitVec 32) : List Entry :=
  startTicks :: symbolTicks (lengthBitOf c) ::
    (dataEntries value (dataBits c) ++ [symbolTicks (checksumBit c value), sentinel])

/-- SEND (R200) of `(c, value)`, issued as the word `w`: the sequence is written from entry 0 up, then
the timer is armed. While the timer is enabled it raises `SEND_WHILE_BUSY` before any write (R263). -/
def State.send (c : PayloadClass) (value : BitVec 32) (w : OpWord) (s : State) : State :=
  if s.timerEnabled then s.raise .sendWhileBusy w
  else { s with seq := writeEntries s.seq 0 (playback c value), timerEnabled := true }

/-- SEND with `len = 2` (R200). -/
def execSend2 (value : BitVec 32) (s : State) : Host.Outcome State Fault Refusal :=
  .next (s.send .two value (encode (.send2 value)))

/-- SEND with `len = 4` (R200). -/
def execSend4 (value : BitVec 32) (s : State) : Host.Outcome State Fault Refusal :=
  .next (s.send .four value (encode (.send4 value)))

/-- The sentinel branch of TICK (R203): the line falls to inactive and the timer stops. -/
def State.stopPlayback (s : State) : State :=
  { s.drive false with pos := 0, timerEnabled := false }

/-- The load of the next entry (R203): a count toggles the line, the sentinel stops the playback. In
states no run reaches the writes of R10 hold (DEDUCED, log entry 13: safe). -/
def State.loadEntry (s : State) : State :=
  let s1 := { s with remaining := entryAt s.seq s.pos, pos := s.pos + 1 }
  if 0 < s1.remaining then s1.drive (!s1.outActive) else s1.stopPlayback

/-- The decrement of TICK (R203). -/
def State.countDown (s : State) : State :=
  if 0 < s.remaining then { s with remaining := s.remaining - 1 } else s

/-- One tick of an enabled timer (R203): the test for 0 follows the decrement in the same tick
(decision D17). -/
def State.playTick (s : State) : State :=
  if s.countDown.remaining = 0 then s.countDown.loadEntry else s.countDown

/-- TICK (R203). The timer agent has a step only while `timer_enabled = 1`; a TICK elsewhere is stuck
(R204; DEDUCED, log entry 9: unsafe where the environment ticks a stopped timer). -/
def execTick (s : State) : Host.Outcome State Fault Refusal :=
  if s.timerEnabled then .next s.playTick else .fault .timerStopped

end Sys2Proof.Machine
end

