-- ==== Sys2Proof/Machine/Dispatch.lean ====
section
/-!
DEFINITION. One arm per operation, each a direct call of its meaning.
-/

namespace Sys2Proof.Machine

def exec (i : Instr) (s : State) : Host.Outcome State Fault Refusal :=
  match i with
  | .edge ts => Sys2Proof.Machine.execEdge ts s
  | .pop => Sys2Proof.Machine.execPop s
  | .rxstep v => Sys2Proof.Machine.execRxstep v s
  | .poll => Sys2Proof.Machine.execPoll s
  | .drain => Sys2Proof.Machine.execDrain s
  | .send2 value => Sys2Proof.Machine.execSend2 value s
  | .send4 value => Sys2Proof.Machine.execSend4 value s
  | .tick => Sys2Proof.Machine.execTick s
  | .status => Sys2Proof.Machine.execStatus s
  | .reset => Sys2Proof.Machine.execReset s

end Sys2Proof.Machine
end

