-- ==== Sys2Proof/Machine/Schedule.lean ====
section
/-!
DEFINITION. Which agent moves next (spec/60_exceptions.md R269, R277; spec/41_receiver.md R170). The
total order of the run is the plain data of `State.schedule`, so every interleaving of the agents is
some schedule; the order in which the main agent issues its own operations is kept.
-/

namespace Sys2Proof.Machine

/-- What the next turn of the run is. -/
inductive Fetched where
  /-- A fault is recorded: no agent has a step (R46, R277). -/
  | stopped
  /-- No operation arrives: the block holds its state (R63, R281). -/
  | idle (s : State)
  /-- The operation `i` runs in `s`. -/
  | run (i : Instr) (s : State)
  /-- Decode refuses the word (R102, R261). -/
  | refuse (c : RefusalCode) (s : State)

/-- The main agent, in the middle of a DRAIN, takes its next iteration (R170); where there is none, the
turn passes. -/
def State.resumeDrain (s : State) : Fetched := if s.draining then .run .drain s else .idle s

/-- The word belongs to the main agent, which is still running a DRAIN: each agent's operations take
effect in the order it issues them (R277), so the word waits. -/
def State.mustWait (w : OpWord) (s : State) : Bool := s.draining && wordAgent w == some .main

/-- The next turn of the run (R76, R269, R315). With the schedule used up, a DRAIN in progress goes on,
the main agent being the only one with a step. -/
def State.nextTurn (s : State) : Fetched :=
  if s.fault.isSome then .stopped
  else
    match s.schedule with
    | [] => s.resumeDrain
    | .resume :: rest => { s with schedule := rest }.resumeDrain
    | .issue w :: rest =>
      if s.mustWait w then .run .drain s
      else
        match decode w with
        | .ok i => .run i { s with schedule := rest }
        | .error c => .refuse c { s with schedule := rest }

/-- The state with the word placed as the next turn, and the main agent between operations, so that
the word does not wait behind a DRAIN. -/
def State.placeWord (w : OpWord) (s : State) : State :=
  { s with schedule := .issue w :: s.schedule, draining := false }

end Sys2Proof.Machine
end

