-- ==== Sys2Proof/Machine/Step.lean ====
section
/-!
DEFINITION. One step of the run: the next turn (Machine/Schedule.lean) and the operation it runs.
-/

namespace Sys2Proof.Machine

/-- One atomic step of one agent (spec/00_scope.md R6, spec/60_exceptions.md R261, R269). -/
def step (s : State) : Host.Outcome State Fault Refusal :=
  match s.nextTurn with
  | .stopped => .fault .blockFaulted
  | .idle t => .next t
  | .run i t => exec i t
  | .refuse c t => .next (t.refuse c)

/-- `s` with the table's word as the next turn of the run; `s` itself where the number is wider than an
operation word. -/
def State.withFetchWord (s : State) (nbits w : Nat) : State :=
  match tableWord nbits w with
  | some word => s.placeWord word
  | none => s

end Sys2Proof.Machine
end

