-- ==== Sys2Proof/Machine/Assembler.lean ====
section
/-!
DEFINITION. The assembler (spec/30_encoding.md R106, R108): from the characters of a source line to
operations and their words. It is no part of the block; it says which words a written line stands for
(log entry 10).
-/

namespace Sys2Proof.Machine

/-- The payload class of a checked SEND length (R106). -/
def classOfLen (len : Nat) : PayloadClass := if len = 2 then .two else .four

/-- SEND in its payload class. -/
def sendInstr (c : PayloadClass) (value : BitVec 32) : Instr :=
  match c with
  | .two => .send2 value
  | .four => .send4 value

/-- The operation of a well-formed line. -/
def lineInstr : Line → Instr
  | .edge ts => .edge (BitVec.ofNat 32 ts)
  | .pop => .pop
  | .rxstep v => .rxstep (BitVec.ofNat 32 v)
  | .poll => .poll
  | .drain => .drain
  | .send len value => sendInstr (classOfLen len) (BitVec.ofNat 32 value)
  | .tick => .tick
  | .status => .status
  | .reset => .reset

/-- R106: the operation of a line, or none where the assembler rejects it. -/
def assembleLine (l : Line) : Option Instr := if l.wellFormed then some (lineInstr l) else none

/-- The interval that RXFRAME feeds for a bit, and for the start marker (R108). -/
def symbolInterval (b : Bool) : Nat := if b then 40 else 20

/-- The start interval of RXFRAME (R108). -/
def startInterval : Nat := 60

/-- RXFRAME's data bits, `value[k-1]` down to `value[0]` (R108). -/
def dataLines (value : BitVec 32) : Nat → List Line
  | 0 => []
  | k + 1 => .rxstep (symbolInterval (value.getLsbD k)) :: dataLines value k

/-- The timestamps of EDGES after `t`: each is the one before it plus d_i, modulo 2^32 (R108). -/
def edgeTimes (t : Nat) : List Nat → List Nat
  | [] => []
  | d :: ds => ((t + d) % 2 ^ 32) :: edgeTimes ((t + d) % 2 ^ 32) ds

/-- S, the sum of the entries SEND writes before the sentinel (R108, R207). -/
def playbackTicks (c : PayloadClass) (value : BitVec 32) : Nat :=
  6 + (if c = .two then 2 else 4) + (2 * dataBits c + 2 * popcountBelow value (dataBits c))
    + (2 + 2 * (checksumBit c value).toNat)

/-- The lines a pseudo-operation expands into, in order (R108). -/
def expandPseudo : Pseudo → List Line
  | .ticks n => List.replicate n .tick
  | .edges t0 ds => .edge t0 :: (edgeTimes t0 ds).map .edge
  | .rxframe len value =>
    let c := classOfLen len
    let v := BitVec.ofNat 32 value
    .rxstep startInterval :: .rxstep (symbolInterval (lengthBitOf c)) ::
      (dataLines v (dataBits c) ++ [.rxstep (symbolInterval (checksumBit c v))])
  | .sendwait len value =>
    .send len value ::
      List.replicate (1 + playbackTicks (classOfLen len) (BitVec.ofNat 32 value)) .tick

/-- The lines of one source line. -/
def expandSource : SourceLine → List Line
  | .op l => [l]
  | .pseudo p => expandPseudo p

/-- The operations of a source line, in order, or none where the assembler rejects it (R106, R108). -/
def assembleSource (l : SourceLine) : Option (List Instr) :=
  if l.wellFormed then (expandSource l).mapM assembleLine else none

/-- The value of a digit character below the base (R106). -/
def digit (base : Nat) (c : Char) : Option Nat :=
  let n := c.toNat
  let d :=
    if 48 ≤ n ∧ n ≤ 57 then n - 48
    else if 65 ≤ n ∧ n ≤ 70 then n - 55
    else if 97 ≤ n ∧ n ≤ 102 then n - 87
    else base
  if d < base then some d else none

/-- Digits read in a base after the number `acc`. -/
def digits (base acc : Nat) : List Char → Option Nat
  | [] => some acc
  | c :: cs =>
    match digit base c with
    | some d => digits base (acc * base + d) cs
    | none => none

/-- A number, decimal or hexadecimal with a `0x` prefix (R106). -/
def number : List Char → Option Nat
  | [] => none
  | '0' :: 'x' :: c :: cs => digits 16 0 (c :: cs)
  | c :: cs => digits 10 0 (c :: cs)

/-- White space within a line (DESIGN CHOICE, log entry 10). -/
def isBlank (c : Char) : Bool := c == ' ' || c == '\t'

/-- Characters without the white space before and after them. -/
def trim (cs : List Char) : List Char := ((cs.dropWhile isBlank).reverse.dropWhile isBlank).reverse

/-- The pieces of a line between commas (R106). -/
def commaSplit : List Char → List (List Char)
  | [] => [[]]
  | c :: cs =>
    if c == ',' then [] :: commaSplit cs
    else
      match commaSplit cs with
      | [] => [[c]]
      | p :: ps => (c :: p) :: ps

/-- The operands of a line: none, or numbers separated by commas (R106). -/
def operands (cs : List Char) : Option (List Nat) :=
  if (trim cs).isEmpty then some [] else (commaSplit cs).mapM fun p => number (trim p)

/-- A mnemonic with its operands (R106, R108). R108 sets no bound on EDGES' m: EDGES with no d_i, m = 0, is
taken as its one EDGE (DESIGN CHOICE, log entry 10). -/
def sourceLine (mnemonic : String) : List Nat → Option SourceLine
  | [] =>
    if mnemonic = "POP" then some (.op .pop)
    else if mnemonic = "POLL" then some (.op .poll)
    else if mnemonic = "DRAIN" then some (.op .drain)
    else if mnemonic = "TICK" then some (.op .tick)
    else if mnemonic = "STATUS" then some (.op .status)
    else if mnemonic = "RESET" then some (.op .reset)
    else none
  | [a] =>
    if mnemonic = "EDGE" then some (.op (.edge a))
    else if mnemonic = "RXSTEP" then some (.op (.rxstep a))
    else if mnemonic = "TICKS" then some (.pseudo (.ticks a))
    else if mnemonic = "EDGES" then some (.pseudo (.edges a []))
    else none
  | [a, b] =>
    if mnemonic = "SEND" then some (.op (.send a b))
    else if mnemonic = "RXFRAME" then some (.pseudo (.rxframe a b))
    else if mnemonic = "SENDWAIT" then some (.pseudo (.sendwait a b))
    else if mnemonic = "EDGES" then some (.pseudo (.edges a [b]))
    else none
  | a :: ds => if mnemonic = "EDGES" then some (.pseudo (.edges a ds)) else none

/-- One line of source text with its comment cut off (R106): the mnemonic first, then the operands. -/
def parseLine (text : List Char) : Option SourceLine :=
  let cs := trim (text.takeWhile (· != ';'))
  match operands (cs.dropWhile fun c => !isBlank c) with
  | some ns => sourceLine (String.ofList (cs.takeWhile fun c => !isBlank c)) ns
  | none => none

/-- The words of source text, one operation per line, or none where a line is rejected (R106). A line
that holds only white space and a comment stands for nothing. -/
def assembleText : List (List Char) → Option (List OpWord)
  | [] => some []
  | text :: rest =>
    if (trim (text.takeWhile (· != ';'))).isEmpty then assembleText rest
    else
      match parseLine text, assembleText rest with
      | some l, some ws => (assembleSource l).map fun is => is.map encode ++ ws
      | _, _ => none

end Sys2Proof.Machine
end

