-- ==== Sys2Proof/Safety.lean ====
section
/-!
DEFINITION. What counts as a safe run of the block, in the terms that claims use: the premises and the
end of a run (spec/60_exceptions.md R261, spec/70_reset_and_hazards.md R315), the enabled agents (R277),
the invariants of spec/10_state.md R51 and R54 and of spec/42_transmit.md R205 and R206, the unread
entries of the ring (spec/40_capture.md R134), and operations run in a given order.
-/

namespace Sys2Proof.Machine

/-- The premise of every claim about a run (R261): no fault recorded and `refused` clear. -/
def State.Clean (s : State) : Prop := s.fault = none ∧ s.refused = false

/-- The run's sequence of operation words is used up (R315) and no DRAIN is in progress (the schedule and
the field for the DRAIN are the model's, log entries 2 and 11). -/
def State.SequenceUsedUp (s : State) : Prop := s.schedule = [] ∧ s.draining = false

/-- The run is over (R315): its sequence is used up, no fault is recorded, since a faulted run "is never
a finished run", and no transmission is pending, since a run that ends with `timer_enabled = 1` "is not
over". -/
def State.RunOver (s : State) : Prop := s.SequenceUsedUp ∧ s.fault = none ∧ s.timerEnabled = false

/-- Quiescent (R315), said of a run at its end: no fault, no refusal, no transmission pending and no unread
entry. -/
def State.Quiescent (s : State) : Prop := s.Clean ∧ s.timerEnabled = false ∧ s.head = s.tail

/-- When an agent has a step (R277). -/
def State.Enabled (a : Agent) (s : State) : Prop :=
  s.fault = none ∧ (a = .timer → s.timerEnabled = true)

/-- The idle invariant (R51). -/
def State.IdleInv (s : State) : Prop :=
  s.timerEnabled = false → s.pos = 0 ∧ s.remaining = 0 ∧ s.outActive = false

/-- Entry `j` of `seq`, for `j` below 64. -/
def State.seqEntry (s : State) (j : Nat) : Entry := entryAt s.seq (BitVec.ofNat 6 j)

/-- Entry `j` of the playback sequence of `(c, value)`; the sentinel from its end on (R201). -/
def playbackEntry (c : PayloadClass) (value : BitVec 32) (j : Nat) : Entry :=
  (playback c value).getD j sentinel

/-- While `(c, value)` is played back (R205, R206): `seq` holds its sequence, `pos` is at most N + 3,
before the first tick nothing is loaded, after it the count runs within the entry last loaded, and the
line is active after an odd number of loads. -/
structure State.Playing (c : PayloadClass) (value : BitVec 32) (s : State) : Prop where
  holds : ∀ j, j < dataBits c + 4 → s.seqEntry j = playbackEntry c value j
  within : s.pos.toNat ≤ dataBits c + 3
  fresh : s.pos = 0 → s.remaining = 0
  counting : s.pos ≠ 0 → 0 < s.remaining ∧ s.remaining ≤ playbackEntry c value (s.pos.toNat - 1)
  level : s.outActive = decide (s.pos.toNat % 2 = 1)

/-- The transmit invariant: idle, or playing back some message (R51, R205, R206). -/
def State.TransmitInv (s : State) : Prop :=
  s.IdleInv ∧ (s.timerEnabled = true → ∃ c value, s.Playing c value)

/-- The receiver invariants of R54, with the bound on `data` that R174 derives. -/
structure State.ReceiverInv (s : State) : Prop where
  expected : s.bitsExpected ∈ [0, 1, 18, 34]
  unstarted : s.bitsExpected = 0 → s.bitsReceived = 0 ∧ s.data = 0
  length : s.bitsReceived ≠ 0 → ∃ c, s.bitsExpected = frameBits c ∧ s.dataLength = lenOf c
  cleared : s.bitsReceived = 0 → s.data = 0
  bounded : s.bitsReceived ≠ 0 → s.data.toNat < 2 ^ (s.bitsReceived.toNat - 1)

/-- What R174 says of a FRAME event; the other events are unconstrained. -/
def Event.InRange : Event → Prop
  | .frame length value => (length = 2 ∧ value.toNat < 2 ^ 16) ∨ length = 4
  | _ => True

/-- Every FRAME in the trace is in range (R174). -/
def State.FramesInRange (s : State) : Prop := ∀ e ∈ s.trace, e.InRange

/-- The mark `refused` says whether a refusal is recorded (R46, R265). -/
def State.MarkInv (s : State) : Prop := s.refused = true ↔ s.refusals ≠ []

/-- `(head - tail) mod 64`, the number of entries pops will return (R134). -/
def State.occupancy (s : State) : Nat := (s.head - s.tail).toNat

/-- The unread entries, oldest first (R70, R134). -/
def State.unread (s : State) : List Entry :=
  (List.range s.occupancy).map fun k => entryAt s.ring (s.tail + BitVec.ofNat 6 k)

/-- The values `qs` pushed in order (R132). -/
def State.pushAll (qs : List Nat) (s : State) : State := qs.foldl (fun t q => t.push q) s

/-- The OUT events among events. -/
def outEvents (es : List Event) : List Event :=
  es.filter fun e => match e with
    | .out _ => true
    | _ => false

/-- Operations run in order, each in the state the one before it leaves (R76). -/
def runInstrs : List Instr → State → Host.Outcome State Fault Refusal
  | [], s => .next s
  | i :: is, s =>
    match exec i s with
    | .next t => runInstrs is t
    | .fault r => .fault r
    | .refused r => .refused r

/-- `n` TICKs in a row. -/
def runTicks (n : Nat) (s : State) : Host.Outcome State Fault Refusal :=
  runInstrs (List.replicate n .tick) s

/-- The tick of R206 at which entry `j` is loaded, counted from 1: `t_0 = 1`, `t_(j+1) = t_j + e_j`. -/
def loadTick (c : PayloadClass) (value : BitVec 32) : Nat → Nat
  | 0 => 1
  | j + 1 => loadTick c value j + (playbackEntry c value j).toNat

/-- The first `n` OUT events of a transmission (R206): `OUT(1)`, `OUT(0)`, alternating. -/
def alternating (n : Nat) : List Event := (List.range n).map fun j => .out (decide (j % 2 = 0))

/-- The round-trip range of the tick period in whole microseconds (R93, R312). -/
def TickPeriodInRange (p : Params) : Prop := 850 ≤ p.tTick ∧ 6 * p.tTick < 7000

end Sys2Proof.Machine
end

