-- ==== Sys2Proof/Certificates/Slice0/Obligations.lean ====
section
/-!
DEFINITION. The statements for the provers. Each docstring names the rule of spec/ it formalises.
-/

open Sys2Proof Sys2Proof.Machine

/-! ### Encoding (spec/30_encoding.md) -/

/-- R99, R100, R106: the word of an operation decodes to that operation, with every operand. -/
def Obligations.DecodeOfEncode : Prop := ∀ i : Instr, decode (encode i) = .ok i

/-- R99, R100, R106: no two words decode to one operation. -/
def Obligations.EncodeOfDecoded : Prop := ∀ (w : OpWord) (i : Instr), decode w = .ok i → encode i = w

/-- R104 with R102's three cases, in numbers: every word decodes to exactly one operation or is refused
by the first case that applies. -/
def Obligations.RefusalCasesInOrder : Prop :=
  ∀ w : OpWord,
    let op := w.toNat / 2 ^ 56
    let reserved := w.toNat / 2 ^ 40 % 2 ^ 16
    let len := w.toNat / 2 ^ 32 % 2 ^ 8
    let arg := w.toNat % 2 ^ 32
    let caseA := op = 0 ∨ 10 ≤ op
    let caseB := reserved ≠ 0 ∨ (op ≠ 6 ∧ len ≠ 0) ∨ (op ≠ 1 ∧ op ≠ 3 ∧ op ≠ 6 ∧ arg ≠ 0)
    let caseC := op = 6 ∧ len ≠ 2 ∧ len ≠ 4
    (decode w = .error .reservedOp ↔ caseA) ∧
    (decode w = .error .reservedField ↔ ¬caseA ∧ caseB) ∧
    (decode w = .error .sendLength ↔ ¬caseA ∧ ¬caseB ∧ caseC) ∧
    (¬caseA ∧ ¬caseB ∧ ¬caseC ↔ ∃ i, decode w = .ok i ∧ w = encode i)

/-- R100: the words that decode are the words that match a row of spec/opcode_table.json. -/
def Obligations.DecodedWordsMatchTable : Prop :=
  ∀ w : OpWord, (∃ i, decode w = .ok i) ↔
    ∃ row ∈ ([(0x0100000000000000, 0xFFFFFFFF00000000), (0x0200000000000000, 0xFFFFFFFFFFFFFFFF),
        (0x0300000000000000, 0xFFFFFFFF00000000), (0x0400000000000000, 0xFFFFFFFFFFFFFFFF),
        (0x0500000000000000, 0xFFFFFFFFFFFFFFFF), (0x0600000200000000, 0xFFFFFFFF00000000),
        (0x0600000400000000, 0xFFFFFFFF00000000), (0x0700000000000000, 0xFFFFFFFFFFFFFFFF),
        (0x0800000000000000, 0xFFFFFFFFFFFFFFFF), (0x0900000000000000, 0xFFFFFFFFFFFFFFFF)] :
        List (OpWord × OpWord)), w &&& row.2 = row.1

/-- Words of spec/95_test_vectors.md V10 and P1 to P4, one of each family at least. -/
def Obligations.WrittenWordsDecode : Prop :=
  decode 0x01000000000F59B0 = .ok (.edge 1006000) ∧ decode 0x0200000000000000 = .ok .pop ∧
  decode 0x030000000000003C = .ok (.rxstep 60) ∧ decode 0x0400000000000000 = .ok .poll ∧
  decode 0x0500000000000000 = .ok .drain ∧ decode 0x060000020000ABCD = .ok (.send2 0xABCD) ∧
  decode 0x0600000412345678 = .ok (.send4 0x12345678) ∧ decode 0x0700000000000000 = .ok .tick ∧
  decode 0x0800000000000000 = .ok .status ∧ decode 0x0900000000000000 = .ok .reset

/-- R106: what the assembler makes of a SEND line, the word `{op, 16'b0, len, arg}`, or rejects. -/
def Obligations.SendLineAssembles : Prop :=
  ∀ len value : Nat,
    ((len = 2 ∨ len = 4) ∧ value < 2 ^ 32 →
      ∃ i, assembleLine (.send len value) = some i ∧
        (encode i).toNat = 6 * 2 ^ 56 + len * 2 ^ 32 + value) ∧
    (¬((len = 2 ∨ len = 4) ∧ value < 2 ^ 32) → assembleLine (.send len value) = none)

/-! ### Steps, outcomes and agents (spec/60_exceptions.md) -/

/-- A step runs the decoded operation: with no fault recorded and no DRAIN to finish first, the word at
the head of the schedule is decoded and run, and the turn is used up (R269, R315; the schedule is the
model's DESIGN CHOICE, log entry 2). -/
def Obligations.StepRunsDecodedOperation : Prop :=
  ∀ (s : State) (w : OpWord) (rest : List Turn) (i : Instr),
    s.fault = none → s.schedule = .issue w :: rest → decode w = .ok i →
    (s.draining = true → i.operation.agent ≠ .main) →
    step s = exec i { s with schedule := rest }

/-- R261, R265, R102: a refused word changes no register and emits nothing; the mark is set and stays
set, the code is recorded, and the run goes on. -/
def Obligations.RefusedWordSetsMark : Prop :=
  ∀ (s : State) (w : OpWord) (rest : List Turn) (c : RefusalCode),
    s.fault = none → s.schedule = .issue w :: rest → decode w = .error c →
    (s.draining = true → wordAgent w ≠ some .main) →
    step s = .next { s with schedule := rest, refused := true, refusals := s.refusals ++ [c] }

/-- R46, R277: on a block with a fault recorded no agent has a step, whatever turn is next. -/
def Obligations.FaultedBlockHasNoStep : Prop :=
  ∀ s : State, s.fault ≠ none → step s = .fault .blockFaulted

/-- R170, R277 (the turns are the model's DESIGN CHOICE, log entry 2): a DRAIN in progress goes on at a
turn that resumes it, at the end of the schedule, and before any further word of the main agent. -/
def Obligations.DrainGoesOn : Prop :=
  ∀ s : State, s.fault = none → s.draining = true →
    (s.schedule = [] → step s = exec .drain s) ∧
    (∀ rest, s.schedule = .resume :: rest → step s = exec .drain { s with schedule := rest }) ∧
    (∀ w rest, s.schedule = .issue w :: rest → wordAgent w = some .main → step s = exec .drain s)

/-- R63, R281: between operations the block holds its state (that none is left is said in the model's
fields of log entries 2 and 11). -/
def Obligations.BlockHoldsStateBetweenOperations : Prop :=
  ∀ s : State, s.fault = none → s.SequenceUsedUp → step s = .next s

/-- R315: no number of steps makes a faulted run, or a run at the end of its words with a transmission
pending, a finished run; the transmission stays pending (the schedule is the model's DESIGN CHOICE, log
entry 2). -/
def Obligations.FaultedOrPendingRunIsNeverOver : Prop :=
  ∀ (n : Nat) (s t : State), Host.Core.run Sys2Proof.core n s = .next t →
    (s.fault ≠ none → ¬t.RunOver) ∧
    (s.schedule = [] → s.timerEnabled = true → t.timerEnabled = true ∧ ¬t.RunOver)

/-- R261, R204, R46: a step has no next state only on a faulted block and at a TICK of a stopped
timer. -/
def Obligations.OnlyTwoStops : Prop :=
  ∀ s : State, (∃ t, step s = .next t) ∨
    (s.fault ≠ none ∧ step s = .fault .blockFaulted) ∨
    (s.fault = none ∧ s.timerEnabled = false ∧
      (∃ rest, s.schedule = .issue (encode .tick) :: rest) ∧ step s = .fault .timerStopped)

/-- R277: the next word's operation has a step exactly when the agent that owns it is enabled. -/
def Obligations.EnabledAgentsHaveSteps : Prop :=
  ∀ (s : State) (i : Instr) (rest : List Turn),
    s.schedule = .issue (encode i) :: rest → s.draining = false →
    ((∃ t, step s = .next t) ↔ s.Enabled i.operation.agent)

/-- R261, R263, R264, R266: the only faults an operation records are SEND_WHILE_BUSY, by SEND, with
nothing else written, and RX_COUNT_WRAP, by RXSTEP, POLL or DRAIN, with nothing else written but the
pop's `tail` and the end of a DRAIN; the record holds the operation's word. That a fault clears the field
for a DRAIN in progress is the model's DESIGN CHOICE, log entry 11. -/
def Obligations.FaultsAreRecorded : Prop :=
  ∀ (i : Instr) (s t : State), exec i s = .next t → t.fault ≠ s.fault →
    (t = { s with fault := some ⟨.sendWhileBusy, encode i⟩ } ∧ s.timerEnabled = true ∧
      i.operation = .send) ∨
    (t = { s with fault := some ⟨.rxCountWrap, encode i⟩, tail := t.tail, draining := t.draining } ∧
      s.bitsExpected ≠ 0 ∧ s.bitsReceived.toNat = 2 ^ 32 - 1 ∧
      (i.operation = .rxstep ∧ t.tail = s.tail ∧ t.draining = s.draining ∨
        i.operation = .poll ∧ t.tail = s.tail + 1 ∧ t.draining = s.draining ∨
        i.operation = .drain ∧ t.tail = s.tail + 1 ∧ t.draining = false))

/-- R12, decision D23: the events an operation appends hold an OUT exactly when the line's level has
changed, and it gives the new level. -/
def Obligations.OutEventsAreLevelChanges : Prop :=
  ∀ (i : Instr) (s t : State), exec i s = .next t →
    ∃ es, t.trace = s.trace ++ es ∧
      outEvents es = if t.outActive = s.outActive then [] else [.out t.outActive]

/-- R53: each piece of state has its writing operations, besides RESET. -/
def Obligations.StateHasItsWriters : Prop :=
  ∀ (i : Instr) (s t : State), exec i s = .next t → i ≠ .reset →
    ((t.prevTs ≠ s.prevTs ∨ t.ring ≠ s.ring ∨ t.head ≠ s.head) → i.operation = .edge) ∧
    (t.tail ≠ s.tail → i.operation = .pop ∨ i.operation = .poll ∨ i.operation = .drain) ∧
    ((t.bitsExpected ≠ s.bitsExpected ∨ t.bitsReceived ≠ s.bitsReceived ∨
        t.dataLength ≠ s.dataLength ∨ t.data ≠ s.data ∨ t.checksum ≠ s.checksum) →
      i.operation = .rxstep ∨ i.operation = .poll ∨ i.operation = .drain) ∧
    (t.seq ≠ s.seq → i.operation = .send) ∧
    ((t.pos ≠ s.pos ∨ t.remaining ≠ s.remaining ∨ t.outActive ≠ s.outActive) →
      i.operation = .tick) ∧
    (t.timerEnabled ≠ s.timerEnabled →
      (i.operation = .send ∧ t.timerEnabled = true) ∨ (i.operation = .tick ∧ t.timerEnabled = false))

/-- R46, R242, R278, decision D21: a step never changes the parameters, removes no event from the trace
and clears neither the mark `refused` nor a recorded refusal. -/
def Obligations.StepsKeepTheRecord : Prop :=
  ∀ s t : State, step s = .next t →
    t.params = s.params ∧ s.trace <+: t.trace ∧ s.refusals <+: t.refusals ∧
    (s.refused = true → t.refused = true)

/-- R46, R265: every step keeps the mark `refused` set exactly when a refusal is recorded. -/
def Obligations.StepsKeepTheMark : Prop :=
  ∀ s t : State, s.MarkInv → step s = .next t → t.MarkInv

/-! ### Edge capture (spec/40_capture.md) -/

/-- R91: the four bands. -/
def Obligations.BandTable : Prop :=
  ∀ v : Nat,
    (band v = .start ↔ 50 < v ∧ v < 70) ∧ (band v = .zero ↔ 10 < v ∧ v < 30) ∧
    (band v = .one ↔ 30 < v ∧ v < 50) ∧
    (band v = .other ↔ v ≤ 10 ∨ v = 30 ∨ v = 50 ∨ 70 ≤ v)

/-- R130, R131, R132 as EDGE applies them (R135): the interval since the last edge, its acceptance and
its push. Everything else is unchanged. -/
def Obligations.EdgeCapturesInterval : Prop :=
  ∀ (ts : Timestamp) (s : State), ∃ t, exec (.edge ts) s = .next t ∧
    t = { s with prevTs := ts, ring := t.ring, head := t.head } ∧
    (let d := (ts.toNat + 2 ^ 32 - s.prevTs.toNat) % 2 ^ 32
     let q := d / 100
     let accepted := match s.params.captureWindowMode with
       | .quotient => 10 < q ∧ q < 200
       | .microseconds => 1000 < d ∧ d < 20000
     (accepted → (entryAt t.ring s.head).toNat = q ∧
       (∀ i, i ≠ s.head → entryAt t.ring i = entryAt s.ring i) ∧
       t.head.toNat = (s.head.toNat + 1) % 64) ∧
     (¬accepted → t.ring = s.ring ∧ t.head = s.head))

/-- R107: SEND writes no entry outside 0, 2, 4 and 6, and EDGE none outside 11..199, or 10..199 in the
mode MICROSECONDS. -/
def Obligations.WrittenEntriesInRange : Prop :=
  ∀ (i : Instr) (s t : State) (j : Index), exec i s = .next t → i ≠ .reset →
    (entryAt t.seq j ≠ entryAt s.seq j → entryAt t.seq j ∈ ([0, 2, 4, 6] : List Entry)) ∧
    (entryAt t.ring j ≠ entryAt s.ring j →
      (match s.params.captureWindowMode with
        | .quotient => 11
        | .microseconds => 10) ≤ (entryAt t.ring j).toNat ∧ (entryAt t.ring j).toNat ≤ 199)

/-- R133 as POP applies it (R136): an empty ring gives NONE and changes nothing; otherwise the entry at
`tail`, zero-extended, is given, and `tail` passes it. -/
def Obligations.PopTakesEntryAtTail : Prop :=
  ∀ s : State,
    (s.head = s.tail → exec .pop s = .next { s with
      trace := s.trace ++ [.popped none], returned := some (.interval none) }) ∧
    (s.head ≠ s.tail → ∃ t v, exec .pop s = .next t ∧
      v.toNat = (entryAt s.ring s.tail).toNat ∧ t.tail.toNat = (s.tail.toNat + 1) % 64 ∧
      t = { s with tail := t.tail, trace := s.trace ++ [.popped (some v)],
                   returned := some (.interval (some v)) })

/-- R134: a run of POPs returns `(head - tail) mod 64` entries, the unread ones from the oldest on, and
the one after them returns NONE; `rx_pending` says whether there is one. -/
def Obligations.OccupancyCountsPops : Prop :=
  ∀ s : State, ∃ t, runInstrs (List.replicate s.occupancy .pop) s = .next t ∧
    t.trace = s.trace ++ s.unread.map (fun e => .popped (some (e.zeroExtend 32))) ∧
    t.head = t.tail ∧ s.occupancy = (s.head.toNat + 64 - s.tail.toNat) % 64 ∧ s.occupancy ≤ 63 ∧
    (s.rxPending = true ↔ s.occupancy ≠ 0)

/-- R70: with room in the ring, an accepted interval goes behind every unread entry. -/
def Obligations.PushGoesBehindUnread : Prop :=
  ∀ (s : State) (q : Nat), s.occupancy < 63 →
    (s.push q).unread = s.unread ++ [BitVec.ofNat 8 q]

/-- R74: after n pushes with no POP from an empty ring, the ring holds the last `n mod 64` values
pushed, in push order, and none when n is a multiple of 64; no flag, counter or event reports a loss. -/
def Obligations.OverrunKeepsLastLap : Prop :=
  ∀ (s : State) (qs : List Nat), s.head = s.tail →
    (s.pushAll qs).unread =
      (qs.drop (qs.length - qs.length % 64)).map (fun q => BitVec.ofNat 8 q) ∧
    ∃ ring head, s.pushAll qs = { s with ring := ring, head := head }

/-- R73: entries outside the unread ones are never observed. Two states that differ only there take the
same operation to states that differ only there, with the same events and returned values; from reset,
where nothing is unread, the draws of `ring` are such a difference. The returned values are read in the
model's own field (log entry 4), and the case of RESET rests on log entry 1, unsafe here: the two runs'
resets draw equal values of `prev_ts` and `seq`, and the states after it are compared at those. -/
def Obligations.UnreadSlotsAreUnobserved : Prop :=
  ∀ (i : Instr) (s t : State) (ring : Table), exec i s = .next t →
    (∀ k, k < s.occupancy → entryAt ring (s.tail + BitVec.ofNat 6 k) =
      entryAt s.ring (s.tail + BitVec.ofNat 6 k)) →
    ∃ ring', exec i { s with ring := ring } = .next { t with ring := ring' } ∧
      ∀ k, k < t.occupancy → entryAt ring' (t.tail + BitVec.ofNat 6 k) =
        entryAt t.ring (t.tail + BitVec.ofNat 6 k)

/-! ### Receiver (spec/41_receiver.md) -/

/-- R162: a start interval is a hard resync. -/
def Obligations.StartMarkerResyncs : Prop :=
  ∀ (v : Interval) (s : State), 50 < v.toNat → v.toNat < 70 →
    exec (.rxstep v) s = .next { s with
      bitsExpected := 1, bitsReceived := 0, data := 0, checksum := true }

/-- R163: before the first start marker an in-band interval changes nothing; and no operation but RESET
makes `bits_expected` 0. -/
def Obligations.InBandIgnoredBeforeStart : Prop :=
  (∀ (v : Interval) (s : State), band v.toNat = .zero ∨ band v.toNat = .one → s.bitsExpected = 0 →
    exec (.rxstep v) s = .next s) ∧
  (∀ (i : Instr) (s t : State), exec i s = .next t → i ≠ .reset → t.bitsExpected = 0 →
    s.bitsExpected = 0)

/-- R164: the first in-band interval after a start marker or noise selects the length. -/
def Obligations.LengthBitSelectsFrame : Prop :=
  ∀ (v : Interval) (s : State), s.bitsExpected ≠ 0 → s.bitsReceived = 0 →
    (10 < v.toNat ∧ v.toNat < 30 → exec (.rxstep v) s = .next { s with
      bitsExpected := 18, dataLength := 2, bitsReceived := 1 }) ∧
    (30 < v.toNat ∧ v.toNat < 50 → exec (.rxstep v) s = .next { s with
      bitsExpected := 34, dataLength := 4, bitsReceived := 1 })

/-- R165: the checksum bit emits the frame exactly when it equals the running parity. -/
def Obligations.ChecksumBitValidates : Prop :=
  ∀ (v : Interval) (b : Bool) (s : State), band v.toNat = (if b then .one else .zero) →
    s.bitsExpected ≠ 0 → s.bitsReceived ≠ 0 → s.bitsReceived = s.bitsExpected - 1 →
    exec (.rxstep v) s = .next { s with
      trace := s.trace ++ (if s.checksum = b then [.frame s.dataLength s.data] else []),
      bitsReceived := s.bitsReceived + 1 }

/-- R166: every other in-band interval is a data bit, also after the frame's end. -/
def Obligations.DataBitAccumulates : Prop :=
  ∀ (v : Interval) (b : Bool) (s : State), band v.toNat = (if b then .one else .zero) →
    s.bitsExpected ≠ 0 → s.bitsReceived ≠ 0 → s.bitsReceived ≠ s.bitsExpected - 1 →
    s.bitsReceived.toNat ≠ 2 ^ 32 - 1 →
    ∃ t, exec (.rxstep v) s = .next t ∧
      t.data.toNat = (2 * s.data.toNat + b.toNat) % 2 ^ 32 ∧
      t.bitsReceived.toNat = s.bitsReceived.toNat + 1 ∧
      t = { s with data := t.data, checksum := (s.checksum != b), bitsReceived := t.bitsReceived }

/-- R167: noise resets the count and the data, and nothing else. -/
def Obligations.NoiseResetsPartially : Prop :=
  ∀ (v : Interval) (s : State),
    v.toNat ≤ 10 ∨ v.toNat = 30 ∨ v.toNat = 50 ∨ 70 ≤ v.toNat →
    exec (.rxstep v) s = .next { s with bitsReceived := 0, data := 0 }

/-- R168: every in-band interval taken after a start marker is counted, in each branch. -/
def Obligations.InBandIntervalsAreCounted : Prop :=
  ∀ (v : Interval) (s : State), band v.toNat = .zero ∨ band v.toNat = .one →
    s.bitsExpected ≠ 0 → s.bitsReceived.toNat ≠ 2 ^ 32 - 1 →
    ∃ t, exec (.rxstep v) s = .next t ∧ t.bitsReceived.toNat = s.bitsReceived.toNat + 1

/-- R264: at the counter's end an in-band interval faults: the code and the word are recorded, and
nothing else is written. -/
def Obligations.CounterWrapFaults : Prop :=
  ∀ (v : Interval) (s : State), band v.toNat = .zero ∨ band v.toNat = .one →
    s.bitsExpected ≠ 0 → s.bitsReceived.toNat = 2 ^ 32 - 1 →
    exec (.rxstep v) s = .next { s with
      fault := some ⟨.rxCountWrap, BitVec.ofNat 64 (3 * 2 ^ 56 + v.toNat)⟩ }

/-- R169: POLL feeds the receiver the interval at `tail`, once `tail` has passed it, and returns it; on
an empty ring it returns NONE. A wrap leaves the `tail` advanced. The field that holds the returned value,
and that a POLL that faults leaves it, are the model's DESIGN CHOICE, log entry 4. -/
def Obligations.PollFeedsReceiver : Prop :=
  ∀ s : State,
    (s.head = s.tail → exec .poll s = .next { s with returned := some (.interval none) }) ∧
    (s.head ≠ s.tail →
      let v : Interval := (entryAt s.ring s.tail).zeroExtend 32
      let popped : State := { s with tail := s.tail + 1 }
      let wraps := s.bitsExpected ≠ 0 ∧ s.bitsReceived.toNat = 2 ^ 32 - 1 ∧
        (band v.toNat = .zero ∨ band v.toNat = .one)
      (¬wraps → ∃ u, exec (.rxstep v) popped = .next u ∧
        exec .poll s = .next { u with returned := some (.interval (some v)) }) ∧
      (wraps → exec .poll s = .next { popped with
        fault := some ⟨.rxCountWrap, 0x0400000000000000⟩ }))

/-- R170: one iteration of DRAIN is a POLL that returns nothing to the main agent; the DRAIN goes on
after an interval and ends at the first empty pop or at a fault. -/
def Obligations.DrainIteratesPoll : Prop :=
  ∀ s : State,
    (s.head = s.tail → exec .drain s = .next { s with draining := false }) ∧
    (s.head ≠ s.tail →
      let v : Interval := (entryAt s.ring s.tail).zeroExtend 32
      let popped : State := { s with tail := s.tail + 1 }
      let wraps := s.bitsExpected ≠ 0 ∧ s.bitsReceived.toNat = 2 ^ 32 - 1 ∧
        (band v.toNat = .zero ∨ band v.toNat = .one)
      (¬wraps → ∃ u, exec (.rxstep v) popped = .next u ∧
        exec .drain s = .next { u with draining := true }) ∧
      (wraps → exec .drain s = .next { popped with
        draining := false, fault := some ⟨.rxCountWrap, 0x0500000000000000⟩ }))

/-- R170, R309: a DRAIN that no edge interrupts gives the receiver every unread interval, oldest first,
and has ended after one step more than there are unread entries. The schedule and the field for a DRAIN
in progress are the model's DESIGN CHOICE, log entries 2 and 11. -/
def Obligations.DrainEmptiesRing : Prop :=
  ∀ s : State, s.fault = none → s.schedule = [.issue (encode .drain)] → s.draining = false →
    s.bitsReceived.toNat + s.occupancy < 2 ^ 32 →
    ∃ t, Host.Core.run Sys2Proof.core (s.occupancy + 1) s = .next t ∧
      t.head = t.tail ∧ t.SequenceUsedUp ∧ t.fault = none ∧
      runInstrs (s.unread.map fun e => .rxstep (e.zeroExtend 32))
        { s with schedule := [], tail := s.head } = .next t

/-- R172: the acceptance law. From any receiver state, a start interval, a length bit, N data bits
forming x and a checksum bit q emit `FRAME(length, x)`, and nothing else, exactly when
`q = 1 XOR (popcount(x) mod 2)`. -/
def Obligations.FrameAcceptance : Prop :=
  ∀ (s : State) (c : PayloadClass) (x : BitVec 32) (q : Bool) (start len check : Interval)
    (bits : List Interval), x.toNat < 2 ^ dataBits c →
    band start.toNat = .start → band len.toNat = (if lengthBitOf c then .one else .zero) →
    bits.map (fun v => band v.toNat) = (List.range (dataBits c)).map
      (fun j => if x.getLsbD (dataBits c - 1 - j) then Band.one else Band.zero) →
    band check.toNat = (if q then .one else .zero) →
    ∃ t, runInstrs ((start :: len :: (bits ++ [check])).map .rxstep) s = .next t ∧
      t.trace = s.trace ++ (if q = decide (popcountBelow x (dataBits c) % 2 = 0) then
        [.frame (lenOf c) x] else []) ∧
      t.bitsReceived.toNat = dataBits c + 2 ∧ t.bitsExpected = t.bitsReceived

/-- R173: after noise the parity goes on from the `checksum` c0 that was left: a frame without a start
marker is emitted exactly when `q = c0 XOR (popcount(x) mod 2)`. -/
def Obligations.ParityCarriesOverNoise : Prop :=
  ∀ (s : State) (c : PayloadClass) (x : BitVec 32) (q : Bool) (noise len check : Interval)
    (bits : List Interval), s.bitsExpected ≠ 0 → x.toNat < 2 ^ dataBits c →
    band noise.toNat = .other → band len.toNat = (if lengthBitOf c then .one else .zero) →
    bits.map (fun v => band v.toNat) = (List.range (dataBits c)).map
      (fun j => if x.getLsbD (dataBits c - 1 - j) then Band.one else Band.zero) →
    band check.toNat = (if q then .one else .zero) →
    ∃ t, runInstrs ((noise :: len :: (bits ++ [check])).map .rxstep) s = .next t ∧
      t.trace = s.trace ++
        (if q = (s.checksum != decide (popcountBelow x (dataBits c) % 2 = 1)) then
          [.frame (lenOf c) x] else [])

/-- R54: every step keeps the receiver invariants. -/
def Obligations.StepsKeepReceiverInvariant : Prop :=
  ∀ s t : State, s.ReceiverInv → step s = .next t → t.ReceiverInv

/-- R174: with the receiver invariants, every step keeps every FRAME of the trace in range. -/
def Obligations.StepsKeepFramesInRange : Prop :=
  ∀ s t : State, s.ReceiverInv → s.FramesInRange → step s = .next t → t.FramesInRange

/-- R108, R172: what RXFRAME assembles to emits exactly the frame of its message. -/
def Obligations.AssembledFrameIsReceived : Prop :=
  ∀ (len value : Nat) (s : State), len = 2 ∨ len = 4 → value < 2 ^ 32 →
    ∃ is t, assembleSource (.pseudo (.rxframe len value)) = some is ∧ runInstrs is s = .next t ∧
      t.trace = s.trace ++
        [.frame (BitVec.ofNat 8 len) (BitVec.ofNat 32 (value % 2 ^ (8 * len)))]

/-! ### Transmit (spec/42_transmit.md) -/

/-- R200, R201, R202: an idle block takes a SEND: the sequence is written entry by entry, the entries
above the sentinel keep what they held, the timer is armed, and nothing else changes. -/
def Obligations.SendWritesSequence : Prop :=
  ∀ (c : PayloadClass) (value : BitVec 32) (s : State), s.timerEnabled = false →
    ∃ t, exec (sendInstr c value) s = .next t ∧ t = { s with seq := t.seq, timerEnabled := true } ∧
      t.seqEntry 0 = 6 ∧ t.seqEntry 1 = (if c = .two then 2 else 4) ∧
      (∀ j, j < dataBits c →
        t.seqEntry (2 + j) = if value.getLsbD (dataBits c - 1 - j) then 4 else 2) ∧
      t.seqEntry (dataBits c + 2) = (if popcountBelow value (dataBits c) % 2 = 0 then 4 else 2) ∧
      t.seqEntry (dataBits c + 3) = 0 ∧
      ∀ j, dataBits c + 4 ≤ j → j < 64 → t.seqEntry j = s.seqEntry j

/-- R263: a SEND while the timer is enabled faults: the code and the word are recorded, and nothing
else is written. -/
def Obligations.SendWhileBusyFaults : Prop :=
  ∀ (c : PayloadClass) (value : BitVec 32) (s : State), s.timerEnabled = true →
    exec (sendInstr c value) s = .next { s with
      fault := some ⟨.sendWhileBusy,
        BitVec.ofNat 64 (6 * 2 ^ 56 + (lenOf c).toNat * 2 ^ 32 + value.toNat)⟩ }

/-- R200, decision D13: the bits of `value` at or above bit 16 are not sent with `len = 2`. -/
def Obligations.HighValueBitsAreNotSent : Prop :=
  ∀ (v u : BitVec 32) (s : State), s.timerEnabled = false → v.toNat % 2 ^ 16 = u.toNat % 2 ^ 16 →
    exec (.send2 v) s = exec (.send2 u) s

/-- R203: one tick of an enabled timer counts down, or loads the next entry and toggles the line, or
meets the sentinel and stops. -/
def Obligations.TickPlaysSequence : Prop :=
  ∀ s : State, s.timerEnabled = true →
    (1 < s.remaining.toNat → exec .tick s = .next { s with remaining := s.remaining - 1 }) ∧
    (s.remaining.toNat ≤ 1 → entryAt s.seq s.pos ≠ 0 → exec .tick s = .next { s with
      remaining := entryAt s.seq s.pos, pos := s.pos + 1, outActive := !s.outActive,
      trace := s.trace ++ [.out (!s.outActive)] }) ∧
    (s.remaining.toNat ≤ 1 → entryAt s.seq s.pos = 0 → exec .tick s = .next { s with
      remaining := 0, pos := 0, outActive := false, timerEnabled := false,
      trace := s.trace ++ (if s.outActive then [.out false] else []) })

/-- R204: a TICK of a stopped timer has no step. -/
def Obligations.StoppedTimerHasNoTick : Prop :=
  ∀ s : State, s.timerEnabled = false → exec .tick s = .fault .timerStopped

/-- R51: every step keeps the idle invariant. -/
def Obligations.StepsKeepIdleInvariant : Prop :=
  ∀ s t : State, s.IdleInv → step s = .next t → t.IdleInv

/-- R205, R62, R206: every step keeps the transmit invariant: idle, or playing back a message that a
SEND wrote, with `pos` at most N + 3. -/
def Obligations.StepsKeepTransmitInvariant : Prop :=
  ∀ s t : State, s.TransmitInv → step s = .next t → t.TransmitInv

/-- R75, R79, R307: while the timer is enabled no operation but RESET changes `seq`. -/
def Obligations.PlaybackIsNotOverwritten : Prop :=
  ∀ (i : Instr) (s t : State), exec i s = .next t → i ≠ .reset → s.timerEnabled = true →
    t.seq = s.seq

/-- R206: the state after every tick of a transmission. Entry j is loaded at tick `t_j`, counts for
`e_j` ticks with the line active when j is even, and the sentinel at tick `t_K` makes the last of
N + 4 alternating OUT events and leaves the block idle. -/
def Obligations.TransmissionEdgeTiming : Prop :=
  ∀ (c : PayloadClass) (value : BitVec 32) (s : State), s.IdleInv → s.timerEnabled = false →
    ∃ s0, exec (sendInstr c value) s = .next s0 ∧
      (∀ j r, j < dataBits c + 3 → r < (playbackEntry c value j).toNat →
        runTicks (loadTick c value j + r) s0 = .next { s0 with
          pos := BitVec.ofNat 6 (j + 1), remaining := playbackEntry c value j - BitVec.ofNat 8 r,
          outActive := decide (j % 2 = 0), trace := s.trace ++ alternating (j + 1) }) ∧
      runTicks (loadTick c value (dataBits c + 3)) s0 = .next { s0 with
        timerEnabled := false, trace := s.trace ++ alternating (dataBits c + 4) }

/-- R207: a transmission takes `1 + S` ticks: the timer is still enabled before the last of them and
disabled after it. -/
def Obligations.TransmissionDuration : Prop :=
  ∀ (c : PayloadClass) (value : BitVec 32) (s : State), s.IdleInv → s.timerEnabled = false →
    let p := if popcountBelow value (dataBits c) % 2 = 0 then 1 else 0
    let sum := 6 + (if c = .two then 2 else 4) + 2 * dataBits c +
      2 * popcountBelow value (dataBits c) + (2 + 2 * p)
    ∃ s0, exec (sendInstr c value) s = .next s0 ∧
      (∃ t, runTicks (1 + sum) s0 = .next t ∧ t.timerEnabled = false ∧ t.IdleInv) ∧
      ∀ n, n < 1 + sum → ∃ t, runTicks n s0 = .next t ∧ t.timerEnabled = true

/-- R208: loopback. The OUT events of a transmission, given to EDGE at `base + t * T_TICK` for a tick
period in R93's range, with the first of them 20 ms or more after the edge before it, are received as
exactly one FRAME of the message. -/
def Obligations.LoopbackRoundTrip : Prop :=
  ∀ (c : PayloadClass) (value : BitVec 32) (base : Nat) (s : State),
    TickPeriodInRange s.params → s.head = s.tail →
    20000 ≤ (BitVec.ofNat 32 (base + s.params.tTick) - s.prevTs).toNat →
    ∃ t, runInstrs
        ((List.range (dataBits c + 4)).map
            (fun j => .edge (BitVec.ofNat 32 (base + loadTick c value j * s.params.tTick))) ++
          List.replicate (dataBits c + 3) .poll) s = .next t ∧
      t.head = t.tail ∧
      t.trace = s.trace ++
        [.frame (lenOf c) (BitVec.ofNat 32 (value.toNat % 2 ^ dataBits c))]

/-- R93: the tick periods, in whole microseconds, for which the encoder's symbols fall in their own
bands. -/
def Obligations.RoundTripTickPeriods : Prop :=
  ∀ t : Nat, (band (intervalUnits (6 * t)) = .start ∧ band (intervalUnits (2 * t)) = .zero ∧
    band (intervalUnits (4 * t)) = .one) ↔ 850 ≤ t ∧ t ≤ 1166

/-! ### Status and reset (spec/43_control.md) -/

/-- R240: STATUS returns and emits the status word, bit by bit, and changes no register. -/
def Obligations.StatusGivesFlags : Prop :=
  ∀ s : State, ∃ w : BitVec 32,
    exec .status s = .next { s with
      trace := s.trace ++ [.statusv w], returned := some (.status w) } ∧
    w.getLsbD 0 = s.timerEnabled ∧ w.getLsbD 1 = s.outActive ∧
    w.getLsbD 2 = decide (s.head ≠ s.tail) ∧ ∀ k, 3 ≤ k → w.getLsbD k = false

/-- R50: STATUS reads none of the hidden state. The status word is read in the model's own field `returned`
(DESIGN CHOICE, log entry 4); StatusGivesFlags says that the emitted word is the same. -/
def Obligations.StatusHidesOtherState : Prop :=
  ∀ s u t : State, s.timerEnabled = u.timerEnabled → s.outActive = u.outActive →
    (s.head = s.tail ↔ u.head = u.tail) → exec .status s = .next t →
    ∃ t', exec .status u = .next t' ∧ t'.returned = t.returned

/-- R241, R52: RESET gives every register its reset value, drives the line inactive with an event if it
was active, and keeps the trace, the marks and the parameters. Nothing is said of the values drawn for
`prev_ts`, `ring` and `seq`. The fields that the frame also keeps are the model's DESIGN CHOICE: the
returned value (log entry 4), the schedule (log entry 2) and a DRAIN in progress (log entry 11, unsafe for
a RESET in the middle of one). -/
def Obligations.ResetGivesResetState : Prop :=
  ∀ s : State, ∃ t, exec .reset s = .next t ∧
    t = { s with
      prevTs := t.prevTs, ring := t.ring, head := 0, tail := 0, bitsExpected := 0,
      bitsReceived := 0, dataLength := 0, data := 0, checksum := false, seq := t.seq, pos := 0,
      remaining := 0, outActive := false, timerEnabled := false, draws := t.draws,
      trace := s.trace ++ (if s.outActive then [.out false] else []) }

/-- R52, R300: the registers after power-on that the spec gives a value, with an empty trace, no fault
and `refused` clear. -/
def Obligations.PowerOnState : Prop :=
  State.reset.head = 0 ∧ State.reset.tail = 0 ∧ State.reset.bitsExpected = 0 ∧
  State.reset.bitsReceived = 0 ∧ State.reset.dataLength = 0 ∧ State.reset.data = 0 ∧
  State.reset.checksum = false ∧ State.reset.pos = 0 ∧ State.reset.remaining = 0 ∧
  State.reset.outActive = false ∧ State.reset.timerEnabled = false ∧ State.reset.fault = none ∧
  State.reset.refused = false ∧ State.reset.trace = []

/-- R51, R54, R205, R174, R46 at power-on, for every launch and every draw. -/
def Obligations.InvariantsHoldAtPowerOn : Prop :=
  ∀ (p : Params) (prevTs : Timestamp) (ring seq : Table),
    let s := State.powerOn p prevTs ring seq
    s.IdleInv ∧ s.TransmitInv ∧ s.ReceiverInv ∧ s.FramesInRange ∧ s.MarkInv ∧ s.Quiescent
end

