-- ==== Sys2Proof/Laws/Encoding.lean ====
section
/-!
SUPPORT. The fields of an operation word that is put together from fields, and the number such a word
is (spec/30_encoding.md R99).
-/

namespace Sys2Proof

variable (op len : BitVec 8) (arg : BitVec 32)

@[simp] theorem opField_wordOf : opField (wordOf op len arg) = op := by
  ext i hi
  simp only [opField, wordOf, BitVec.getElem_extractLsb', BitVec.getLsbD_append]
  simp
  grind

@[simp] theorem lenField_wordOf : lenField (wordOf op len arg) = len := by
  ext i hi
  simp only [lenField, wordOf, BitVec.getElem_extractLsb', BitVec.getLsbD_append]
  simp
  grind

@[simp] theorem argField_wordOf : argField (wordOf op len arg) = arg := by
  ext i hi
  simp only [argField, wordOf, BitVec.getElem_extractLsb', BitVec.getLsbD_append]
  simp
  grind

@[simp] theorem reservedField_wordOf : reservedField (wordOf op len arg) = 0 := by
  ext i hi
  simp only [reservedField, wordOf, BitVec.getElem_extractLsb', BitVec.getLsbD_append]
  simp
  grind

/-- A word whose reserved field is 0 is its other three fields put together. -/
theorem wordOf_fields (w : OpWord) (h : reservedField w = 0) :
    wordOf (opField w) (lenField w) (argField w) = w := by
  ext i hi
  have h' : ∀ k, (reservedField w).getLsbD k = false := by simp [h]
  have := h' (i - 40)
  simp only [reservedField, opField, lenField, argField, wordOf, BitVec.getLsbD_extractLsb',
    ← BitVec.getLsbD_eq_getElem, BitVec.getLsbD_append] at *
  simp at *
  grind

/-- The number a word put together from fields is. -/
theorem toNat_wordOf :
    (wordOf op len arg).toNat = op.toNat * 2 ^ 56 + len.toNat * 2 ^ 32 + arg.toNat := by
  have h0 : (0 : BitVec 16).toNat = 0 := rfl
  simp only [wordOf, BitVec.toNat_append, h0, Nat.or_zero]
  rw [← Nat.shiftLeft_add_eq_or_of_lt arg.isLt, ← Nat.shiftLeft_add_eq_or_of_lt len.isLt]
  simp only [Nat.shiftLeft_eq]
  omega

/-- The fields of a word as numbers. -/
theorem opField_toNat (w : OpWord) : (opField w).toNat = w.toNat / 2 ^ 56 := by
  have := w.isLt
  simp only [opField, BitVec.extractLsb'_toNat, Nat.shiftRight_eq_div_pow]
  omega

theorem reservedField_toNat (w : OpWord) :
    (reservedField w).toNat = w.toNat / 2 ^ 40 % 2 ^ 16 := by
  simp only [reservedField, BitVec.extractLsb'_toNat, Nat.shiftRight_eq_div_pow]

theorem lenField_toNat (w : OpWord) : (lenField w).toNat = w.toNat / 2 ^ 32 % 2 ^ 8 := by
  simp only [lenField, BitVec.extractLsb'_toNat, Nat.shiftRight_eq_div_pow]

theorem argField_toNat (w : OpWord) : (argField w).toNat = w.toNat % 2 ^ 32 := by
  simp only [argField, BitVec.extractLsb'_toNat, Nat.shiftRight_zero]

/-- The decoder sees only an instruction's operation, its length and its operand. -/
theorem decode_wordOf (o : Operation) (h : operationOf op = some o) :
    decode (wordOf op len arg) =
      if unusedFieldSet o (wordOf op len arg) then .error .reservedField
      else decodeOperands o (wordOf op len arg) := by
  simp [decode, h]

end Sys2Proof
end

