-- ==== Sys2Proof/Laws/State.lean ====
section
/-!
SUPPORT. One lemma per field per update of the state, so that a proof never unfolds a record update;
and the same for the output line, whose update depends on the level.
-/

namespace Sys2Proof.Machine

variable (s : State)

@[simp] theorem emit_prevTs (e : Event) : (s.emit e).prevTs = s.prevTs := rfl
@[simp] theorem emit_ring (e : Event) : (s.emit e).ring = s.ring := rfl
@[simp] theorem emit_head (e : Event) : (s.emit e).head = s.head := rfl
@[simp] theorem emit_tail (e : Event) : (s.emit e).tail = s.tail := rfl
@[simp] theorem emit_bitsExpected (e : Event) : (s.emit e).bitsExpected = s.bitsExpected := rfl
@[simp] theorem emit_bitsReceived (e : Event) : (s.emit e).bitsReceived = s.bitsReceived := rfl
@[simp] theorem emit_dataLength (e : Event) : (s.emit e).dataLength = s.dataLength := rfl
@[simp] theorem emit_data (e : Event) : (s.emit e).data = s.data := rfl
@[simp] theorem emit_checksum (e : Event) : (s.emit e).checksum = s.checksum := rfl
@[simp] theorem emit_seq (e : Event) : (s.emit e).seq = s.seq := rfl
@[simp] theorem emit_pos (e : Event) : (s.emit e).pos = s.pos := rfl
@[simp] theorem emit_outActive (e : Event) : (s.emit e).outActive = s.outActive := rfl
@[simp] theorem emit_remaining (e : Event) : (s.emit e).remaining = s.remaining := rfl
@[simp] theorem emit_timerEnabled (e : Event) : (s.emit e).timerEnabled = s.timerEnabled := rfl
@[simp] theorem emit_fault (e : Event) : (s.emit e).fault = s.fault := rfl
@[simp] theorem emit_refused (e : Event) : (s.emit e).refused = s.refused := rfl
@[simp] theorem emit_refusals (e : Event) : (s.emit e).refusals = s.refusals := rfl
@[simp] theorem emit_trace (e : Event) : (s.emit e).trace = s.trace ++ [e] := rfl
@[simp] theorem emit_returned (e : Event) : (s.emit e).returned = s.returned := rfl
@[simp] theorem emit_params (e : Event) : (s.emit e).params = s.params := rfl
@[simp] theorem emit_schedule (e : Event) : (s.emit e).schedule = s.schedule := rfl
@[simp] theorem emit_draining (e : Event) : (s.emit e).draining = s.draining := rfl
@[simp] theorem emit_draws (e : Event) : (s.emit e).draws = s.draws := rfl

@[simp] theorem giveBack_prevTs (r : Returned) : (s.giveBack r).prevTs = s.prevTs := rfl
@[simp] theorem giveBack_ring (r : Returned) : (s.giveBack r).ring = s.ring := rfl
@[simp] theorem giveBack_head (r : Returned) : (s.giveBack r).head = s.head := rfl
@[simp] theorem giveBack_tail (r : Returned) : (s.giveBack r).tail = s.tail := rfl
@[simp] theorem giveBack_bitsExpected (r : Returned) : (s.giveBack r).bitsExpected = s.bitsExpected := rfl
@[simp] theorem giveBack_bitsReceived (r : Returned) : (s.giveBack r).bitsReceived = s.bitsReceived := rfl
@[simp] theorem giveBack_dataLength (r : Returned) : (s.giveBack r).dataLength = s.dataLength := rfl
@[simp] theorem giveBack_data (r : Returned) : (s.giveBack r).data = s.data := rfl
@[simp] theorem giveBack_checksum (r : Returned) : (s.giveBack r).checksum = s.checksum := rfl
@[simp] theorem giveBack_seq (r : Returned) : (s.giveBack r).seq = s.seq := rfl
@[simp] theorem giveBack_pos (r : Returned) : (s.giveBack r).pos = s.pos := rfl
@[simp] theorem giveBack_outActive (r : Returned) : (s.giveBack r).outActive = s.outActive := rfl
@[simp] theorem giveBack_remaining (r : Returned) : (s.giveBack r).remaining = s.remaining := rfl
@[simp] theorem giveBack_timerEnabled (r : Returned) : (s.giveBack r).timerEnabled = s.timerEnabled := rfl
@[simp] theorem giveBack_fault (r : Returned) : (s.giveBack r).fault = s.fault := rfl
@[simp] theorem giveBack_refused (r : Returned) : (s.giveBack r).refused = s.refused := rfl
@[simp] theorem giveBack_refusals (r : Returned) : (s.giveBack r).refusals = s.refusals := rfl
@[simp] theorem giveBack_trace (r : Returned) : (s.giveBack r).trace = s.trace := rfl
@[simp] theorem giveBack_returned (r : Returned) : (s.giveBack r).returned = some r := rfl
@[simp] theorem giveBack_params (r : Returned) : (s.giveBack r).params = s.params := rfl
@[simp] theorem giveBack_schedule (r : Returned) : (s.giveBack r).schedule = s.schedule := rfl
@[simp] theorem giveBack_draining (r : Returned) : (s.giveBack r).draining = s.draining := rfl
@[simp] theorem giveBack_draws (r : Returned) : (s.giveBack r).draws = s.draws := rfl

@[simp] theorem raise_prevTs (c : FaultCode) (w : OpWord) : (s.raise c w).prevTs = s.prevTs := rfl
@[simp] theorem raise_ring (c : FaultCode) (w : OpWord) : (s.raise c w).ring = s.ring := rfl
@[simp] theorem raise_head (c : FaultCode) (w : OpWord) : (s.raise c w).head = s.head := rfl
@[simp] theorem raise_tail (c : FaultCode) (w : OpWord) : (s.raise c w).tail = s.tail := rfl
@[simp] theorem raise_bitsExpected (c : FaultCode) (w : OpWord) : (s.raise c w).bitsExpected = s.bitsExpected := rfl
@[simp] theorem raise_bitsReceived (c : FaultCode) (w : OpWord) : (s.raise c w).bitsReceived = s.bitsReceived := rfl
@[simp] theorem raise_dataLength (c : FaultCode) (w : OpWord) : (s.raise c w).dataLength = s.dataLength := rfl
@[simp] theorem raise_data (c : FaultCode) (w : OpWord) : (s.raise c w).data = s.data := rfl
@[simp] theorem raise_checksum (c : FaultCode) (w : OpWord) : (s.raise c w).checksum = s.checksum := rfl
@[simp] theorem raise_seq (c : FaultCode) (w : OpWord) : (s.raise c w).seq = s.seq := rfl
@[simp] theorem raise_pos (c : FaultCode) (w : OpWord) : (s.raise c w).pos = s.pos := rfl
@[simp] theorem raise_outActive (c : FaultCode) (w : OpWord) : (s.raise c w).outActive = s.outActive := rfl
@[simp] theorem raise_remaining (c : FaultCode) (w : OpWord) : (s.raise c w).remaining = s.remaining := rfl
@[simp] theorem raise_timerEnabled (c : FaultCode) (w : OpWord) : (s.raise c w).timerEnabled = s.timerEnabled := rfl
@[simp] theorem raise_fault (c : FaultCode) (w : OpWord) : (s.raise c w).fault = some ⟨c, w⟩ := rfl
@[simp] theorem raise_refused (c : FaultCode) (w : OpWord) : (s.raise c w).refused = s.refused := rfl
@[simp] theorem raise_refusals (c : FaultCode) (w : OpWord) : (s.raise c w).refusals = s.refusals := rfl
@[simp] theorem raise_trace (c : FaultCode) (w : OpWord) : (s.raise c w).trace = s.trace := rfl
@[simp] theorem raise_returned (c : FaultCode) (w : OpWord) : (s.raise c w).returned = s.returned := rfl
@[simp] theorem raise_params (c : FaultCode) (w : OpWord) : (s.raise c w).params = s.params := rfl
@[simp] theorem raise_schedule (c : FaultCode) (w : OpWord) : (s.raise c w).schedule = s.schedule := rfl
@[simp] theorem raise_draining (c : FaultCode) (w : OpWord) : (s.raise c w).draining = s.draining := rfl
@[simp] theorem raise_draws (c : FaultCode) (w : OpWord) : (s.raise c w).draws = s.draws := rfl

@[simp] theorem refuse_prevTs (c : RefusalCode) : (s.refuse c).prevTs = s.prevTs := rfl
@[simp] theorem refuse_ring (c : RefusalCode) : (s.refuse c).ring = s.ring := rfl
@[simp] theorem refuse_head (c : RefusalCode) : (s.refuse c).head = s.head := rfl
@[simp] theorem refuse_tail (c : RefusalCode) : (s.refuse c).tail = s.tail := rfl
@[simp] theorem refuse_bitsExpected (c : RefusalCode) : (s.refuse c).bitsExpected = s.bitsExpected := rfl
@[simp] theorem refuse_bitsReceived (c : RefusalCode) : (s.refuse c).bitsReceived = s.bitsReceived := rfl
@[simp] theorem refuse_dataLength (c : RefusalCode) : (s.refuse c).dataLength = s.dataLength := rfl
@[simp] theorem refuse_data (c : RefusalCode) : (s.refuse c).data = s.data := rfl
@[simp] theorem refuse_checksum (c : RefusalCode) : (s.refuse c).checksum = s.checksum := rfl
@[simp] theorem refuse_seq (c : RefusalCode) : (s.refuse c).seq = s.seq := rfl
@[simp] theorem refuse_pos (c : RefusalCode) : (s.refuse c).pos = s.pos := rfl
@[simp] theorem refuse_outActive (c : RefusalCode) : (s.refuse c).outActive = s.outActive := rfl
@[simp] theorem refuse_remaining (c : RefusalCode) : (s.refuse c).remaining = s.remaining := rfl
@[simp] theorem refuse_timerEnabled (c : RefusalCode) : (s.refuse c).timerEnabled = s.timerEnabled := rfl
@[simp] theorem refuse_fault (c : RefusalCode) : (s.refuse c).fault = s.fault := rfl
@[simp] theorem refuse_refused (c : RefusalCode) : (s.refuse c).refused = true := rfl
@[simp] theorem refuse_refusals (c : RefusalCode) : (s.refuse c).refusals = s.refusals ++ [c] := rfl
@[simp] theorem refuse_trace (c : RefusalCode) : (s.refuse c).trace = s.trace := rfl
@[simp] theorem refuse_returned (c : RefusalCode) : (s.refuse c).returned = s.returned := rfl
@[simp] theorem refuse_params (c : RefusalCode) : (s.refuse c).params = s.params := rfl
@[simp] theorem refuse_schedule (c : RefusalCode) : (s.refuse c).schedule = s.schedule := rfl
@[simp] theorem refuse_draining (c : RefusalCode) : (s.refuse c).draining = s.draining := rfl
@[simp] theorem refuse_draws (c : RefusalCode) : (s.refuse c).draws = s.draws := rfl

@[simp] theorem push_prevTs (q : Nat) : (s.push q).prevTs = s.prevTs := rfl
@[simp] theorem push_ring (q : Nat) : (s.push q).ring = withEntry s.ring s.head (BitVec.ofNat 8 q) := rfl
@[simp] theorem push_head (q : Nat) : (s.push q).head = nextIndex s.head := rfl
@[simp] theorem push_tail (q : Nat) : (s.push q).tail = s.tail := rfl
@[simp] theorem push_bitsExpected (q : Nat) : (s.push q).bitsExpected = s.bitsExpected := rfl
@[simp] theorem push_bitsReceived (q : Nat) : (s.push q).bitsReceived = s.bitsReceived := rfl
@[simp] theorem push_dataLength (q : Nat) : (s.push q).dataLength = s.dataLength := rfl
@[simp] theorem push_data (q : Nat) : (s.push q).data = s.data := rfl
@[simp] theorem push_checksum (q : Nat) : (s.push q).checksum = s.checksum := rfl
@[simp] theorem push_seq (q : Nat) : (s.push q).seq = s.seq := rfl
@[simp] theorem push_pos (q : Nat) : (s.push q).pos = s.pos := rfl
@[simp] theorem push_outActive (q : Nat) : (s.push q).outActive = s.outActive := rfl
@[simp] theorem push_remaining (q : Nat) : (s.push q).remaining = s.remaining := rfl
@[simp] theorem push_timerEnabled (q : Nat) : (s.push q).timerEnabled = s.timerEnabled := rfl
@[simp] theorem push_fault (q : Nat) : (s.push q).fault = s.fault := rfl
@[simp] theorem push_refused (q : Nat) : (s.push q).refused = s.refused := rfl
@[simp] theorem push_refusals (q : Nat) : (s.push q).refusals = s.refusals := rfl
@[simp] theorem push_trace (q : Nat) : (s.push q).trace = s.trace := rfl
@[simp] theorem push_returned (q : Nat) : (s.push q).returned = s.returned := rfl
@[simp] theorem push_params (q : Nat) : (s.push q).params = s.params := rfl
@[simp] theorem push_schedule (q : Nat) : (s.push q).schedule = s.schedule := rfl
@[simp] theorem push_draining (q : Nat) : (s.push q).draining = s.draining := rfl
@[simp] theorem push_draws (q : Nat) : (s.push q).draws = s.draws := rfl

@[simp] theorem advanceTail_prevTs : s.advanceTail.prevTs = s.prevTs := rfl
@[simp] theorem advanceTail_ring : s.advanceTail.ring = s.ring := rfl
@[simp] theorem advanceTail_head : s.advanceTail.head = s.head := rfl
@[simp] theorem advanceTail_tail : s.advanceTail.tail = nextIndex s.tail := rfl
@[simp] theorem advanceTail_bitsExpected : s.advanceTail.bitsExpected = s.bitsExpected := rfl
@[simp] theorem advanceTail_bitsReceived : s.advanceTail.bitsReceived = s.bitsReceived := rfl
@[simp] theorem advanceTail_dataLength : s.advanceTail.dataLength = s.dataLength := rfl
@[simp] theorem advanceTail_data : s.advanceTail.data = s.data := rfl
@[simp] theorem advanceTail_checksum : s.advanceTail.checksum = s.checksum := rfl
@[simp] theorem advanceTail_seq : s.advanceTail.seq = s.seq := rfl
@[simp] theorem advanceTail_pos : s.advanceTail.pos = s.pos := rfl
@[simp] theorem advanceTail_outActive : s.advanceTail.outActive = s.outActive := rfl
@[simp] theorem advanceTail_remaining : s.advanceTail.remaining = s.remaining := rfl
@[simp] theorem advanceTail_timerEnabled : s.advanceTail.timerEnabled = s.timerEnabled := rfl
@[simp] theorem advanceTail_fault : s.advanceTail.fault = s.fault := rfl
@[simp] theorem advanceTail_refused : s.advanceTail.refused = s.refused := rfl
@[simp] theorem advanceTail_refusals : s.advanceTail.refusals = s.refusals := rfl
@[simp] theorem advanceTail_trace : s.advanceTail.trace = s.trace := rfl
@[simp] theorem advanceTail_returned : s.advanceTail.returned = s.returned := rfl
@[simp] theorem advanceTail_params : s.advanceTail.params = s.params := rfl
@[simp] theorem advanceTail_schedule : s.advanceTail.schedule = s.schedule := rfl
@[simp] theorem advanceTail_draining : s.advanceTail.draining = s.draining := rfl
@[simp] theorem advanceTail_draws : s.advanceTail.draws = s.draws := rfl

@[simp] theorem startMarker_prevTs : s.startMarker.prevTs = s.prevTs := rfl
@[simp] theorem startMarker_ring : s.startMarker.ring = s.ring := rfl
@[simp] theorem startMarker_head : s.startMarker.head = s.head := rfl
@[simp] theorem startMarker_tail : s.startMarker.tail = s.tail := rfl
@[simp] theorem startMarker_bitsExpected : s.startMarker.bitsExpected = 1 := rfl
@[simp] theorem startMarker_bitsReceived : s.startMarker.bitsReceived = 0 := rfl
@[simp] theorem startMarker_dataLength : s.startMarker.dataLength = s.dataLength := rfl
@[simp] theorem startMarker_data : s.startMarker.data = 0 := rfl
@[simp] theorem startMarker_checksum : s.startMarker.checksum = paritySeed := rfl
@[simp] theorem startMarker_seq : s.startMarker.seq = s.seq := rfl
@[simp] theorem startMarker_pos : s.startMarker.pos = s.pos := rfl
@[simp] theorem startMarker_outActive : s.startMarker.outActive = s.outActive := rfl
@[simp] theorem startMarker_remaining : s.startMarker.remaining = s.remaining := rfl
@[simp] theorem startMarker_timerEnabled : s.startMarker.timerEnabled = s.timerEnabled := rfl
@[simp] theorem startMarker_fault : s.startMarker.fault = s.fault := rfl
@[simp] theorem startMarker_refused : s.startMarker.refused = s.refused := rfl
@[simp] theorem startMarker_refusals : s.startMarker.refusals = s.refusals := rfl
@[simp] theorem startMarker_trace : s.startMarker.trace = s.trace := rfl
@[simp] theorem startMarker_returned : s.startMarker.returned = s.returned := rfl
@[simp] theorem startMarker_params : s.startMarker.params = s.params := rfl
@[simp] theorem startMarker_schedule : s.startMarker.schedule = s.schedule := rfl
@[simp] theorem startMarker_draining : s.startMarker.draining = s.draining := rfl
@[simp] theorem startMarker_draws : s.startMarker.draws = s.draws := rfl

@[simp] theorem noise_prevTs : s.noise.prevTs = s.prevTs := rfl
@[simp] theorem noise_ring : s.noise.ring = s.ring := rfl
@[simp] theorem noise_head : s.noise.head = s.head := rfl
@[simp] theorem noise_tail : s.noise.tail = s.tail := rfl
@[simp] theorem noise_bitsExpected : s.noise.bitsExpected = s.bitsExpected := rfl
@[simp] theorem noise_bitsReceived : s.noise.bitsReceived = 0 := rfl
@[simp] theorem noise_dataLength : s.noise.dataLength = s.dataLength := rfl
@[simp] theorem noise_data : s.noise.data = 0 := rfl
@[simp] theorem noise_checksum : s.noise.checksum = s.checksum := rfl
@[simp] theorem noise_seq : s.noise.seq = s.seq := rfl
@[simp] theorem noise_pos : s.noise.pos = s.pos := rfl
@[simp] theorem noise_outActive : s.noise.outActive = s.outActive := rfl
@[simp] theorem noise_remaining : s.noise.remaining = s.remaining := rfl
@[simp] theorem noise_timerEnabled : s.noise.timerEnabled = s.timerEnabled := rfl
@[simp] theorem noise_fault : s.noise.fault = s.fault := rfl
@[simp] theorem noise_refused : s.noise.refused = s.refused := rfl
@[simp] theorem noise_refusals : s.noise.refusals = s.refusals := rfl
@[simp] theorem noise_trace : s.noise.trace = s.trace := rfl
@[simp] theorem noise_returned : s.noise.returned = s.returned := rfl
@[simp] theorem noise_params : s.noise.params = s.params := rfl
@[simp] theorem noise_schedule : s.noise.schedule = s.schedule := rfl
@[simp] theorem noise_draining : s.noise.draining = s.draining := rfl
@[simp] theorem noise_draws : s.noise.draws = s.draws := rfl

@[simp] theorem lengthBit_prevTs (b : Bool) : (s.lengthBit b).prevTs = s.prevTs := rfl
@[simp] theorem lengthBit_ring (b : Bool) : (s.lengthBit b).ring = s.ring := rfl
@[simp] theorem lengthBit_head (b : Bool) : (s.lengthBit b).head = s.head := rfl
@[simp] theorem lengthBit_tail (b : Bool) : (s.lengthBit b).tail = s.tail := rfl
@[simp] theorem lengthBit_bitsExpected (b : Bool) : (s.lengthBit b).bitsExpected = frameBits (classOfBit b) := rfl
@[simp] theorem lengthBit_bitsReceived (b : Bool) : (s.lengthBit b).bitsReceived = s.bitsReceived := rfl
@[simp] theorem lengthBit_dataLength (b : Bool) : (s.lengthBit b).dataLength = lenOf (classOfBit b) := rfl
@[simp] theorem lengthBit_data (b : Bool) : (s.lengthBit b).data = s.data := rfl
@[simp] theorem lengthBit_checksum (b : Bool) : (s.lengthBit b).checksum = s.checksum := rfl
@[simp] theorem lengthBit_seq (b : Bool) : (s.lengthBit b).seq = s.seq := rfl
@[simp] theorem lengthBit_pos (b : Bool) : (s.lengthBit b).pos = s.pos := rfl
@[simp] theorem lengthBit_outActive (b : Bool) : (s.lengthBit b).outActive = s.outActive := rfl
@[simp] theorem lengthBit_remaining (b : Bool) : (s.lengthBit b).remaining = s.remaining := rfl
@[simp] theorem lengthBit_timerEnabled (b : Bool) : (s.lengthBit b).timerEnabled = s.timerEnabled := rfl
@[simp] theorem lengthBit_fault (b : Bool) : (s.lengthBit b).fault = s.fault := rfl
@[simp] theorem lengthBit_refused (b : Bool) : (s.lengthBit b).refused = s.refused := rfl
@[simp] theorem lengthBit_refusals (b : Bool) : (s.lengthBit b).refusals = s.refusals := rfl
@[simp] theorem lengthBit_trace (b : Bool) : (s.lengthBit b).trace = s.trace := rfl
@[simp] theorem lengthBit_returned (b : Bool) : (s.lengthBit b).returned = s.returned := rfl
@[simp] theorem lengthBit_params (b : Bool) : (s.lengthBit b).params = s.params := rfl
@[simp] theorem lengthBit_schedule (b : Bool) : (s.lengthBit b).schedule = s.schedule := rfl
@[simp] theorem lengthBit_draining (b : Bool) : (s.lengthBit b).draining = s.draining := rfl
@[simp] theorem lengthBit_draws (b : Bool) : (s.lengthBit b).draws = s.draws := rfl

@[simp] theorem dataBit_prevTs (b : Bool) : (s.dataBit b).prevTs = s.prevTs := rfl
@[simp] theorem dataBit_ring (b : Bool) : (s.dataBit b).ring = s.ring := rfl
@[simp] theorem dataBit_head (b : Bool) : (s.dataBit b).head = s.head := rfl
@[simp] theorem dataBit_tail (b : Bool) : (s.dataBit b).tail = s.tail := rfl
@[simp] theorem dataBit_bitsExpected (b : Bool) : (s.dataBit b).bitsExpected = s.bitsExpected := rfl
@[simp] theorem dataBit_bitsReceived (b : Bool) : (s.dataBit b).bitsReceived = s.bitsReceived := rfl
@[simp] theorem dataBit_dataLength (b : Bool) : (s.dataBit b).dataLength = s.dataLength := rfl
@[simp] theorem dataBit_data (b : Bool) : (s.dataBit b).data = (s.data <<< 1) ||| (if b then 1 else 0) := rfl
@[simp] theorem dataBit_checksum (b : Bool) : (s.dataBit b).checksum = (s.checksum ^^ b) := rfl
@[simp] theorem dataBit_seq (b : Bool) : (s.dataBit b).seq = s.seq := rfl
@[simp] theorem dataBit_pos (b : Bool) : (s.dataBit b).pos = s.pos := rfl
@[simp] theorem dataBit_outActive (b : Bool) : (s.dataBit b).outActive = s.outActive := rfl
@[simp] theorem dataBit_remaining (b : Bool) : (s.dataBit b).remaining = s.remaining := rfl
@[simp] theorem dataBit_timerEnabled (b : Bool) : (s.dataBit b).timerEnabled = s.timerEnabled := rfl
@[simp] theorem dataBit_fault (b : Bool) : (s.dataBit b).fault = s.fault := rfl
@[simp] theorem dataBit_refused (b : Bool) : (s.dataBit b).refused = s.refused := rfl
@[simp] theorem dataBit_refusals (b : Bool) : (s.dataBit b).refusals = s.refusals := rfl
@[simp] theorem dataBit_trace (b : Bool) : (s.dataBit b).trace = s.trace := rfl
@[simp] theorem dataBit_returned (b : Bool) : (s.dataBit b).returned = s.returned := rfl
@[simp] theorem dataBit_params (b : Bool) : (s.dataBit b).params = s.params := rfl
@[simp] theorem dataBit_schedule (b : Bool) : (s.dataBit b).schedule = s.schedule := rfl
@[simp] theorem dataBit_draining (b : Bool) : (s.dataBit b).draining = s.draining := rfl
@[simp] theorem dataBit_draws (b : Bool) : (s.dataBit b).draws = s.draws := rfl

@[simp] theorem countBit_prevTs : s.countBit.prevTs = s.prevTs := rfl
@[simp] theorem countBit_ring : s.countBit.ring = s.ring := rfl
@[simp] theorem countBit_head : s.countBit.head = s.head := rfl
@[simp] theorem countBit_tail : s.countBit.tail = s.tail := rfl
@[simp] theorem countBit_bitsExpected : s.countBit.bitsExpected = s.bitsExpected := rfl
@[simp] theorem countBit_bitsReceived : s.countBit.bitsReceived = s.bitsReceived + 1 := rfl
@[simp] theorem countBit_dataLength : s.countBit.dataLength = s.dataLength := rfl
@[simp] theorem countBit_data : s.countBit.data = s.data := rfl
@[simp] theorem countBit_checksum : s.countBit.checksum = s.checksum := rfl
@[simp] theorem countBit_seq : s.countBit.seq = s.seq := rfl
@[simp] theorem countBit_pos : s.countBit.pos = s.pos := rfl
@[simp] theorem countBit_outActive : s.countBit.outActive = s.outActive := rfl
@[simp] theorem countBit_remaining : s.countBit.remaining = s.remaining := rfl
@[simp] theorem countBit_timerEnabled : s.countBit.timerEnabled = s.timerEnabled := rfl
@[simp] theorem countBit_fault : s.countBit.fault = s.fault := rfl
@[simp] theorem countBit_refused : s.countBit.refused = s.refused := rfl
@[simp] theorem countBit_refusals : s.countBit.refusals = s.refusals := rfl
@[simp] theorem countBit_trace : s.countBit.trace = s.trace := rfl
@[simp] theorem countBit_returned : s.countBit.returned = s.returned := rfl
@[simp] theorem countBit_params : s.countBit.params = s.params := rfl
@[simp] theorem countBit_schedule : s.countBit.schedule = s.schedule := rfl
@[simp] theorem countBit_draining : s.countBit.draining = s.draining := rfl
@[simp] theorem countBit_draws : s.countBit.draws = s.draws := rfl

@[simp] theorem placeWord_prevTs (w : OpWord) : (s.placeWord w).prevTs = s.prevTs := rfl
@[simp] theorem placeWord_ring (w : OpWord) : (s.placeWord w).ring = s.ring := rfl
@[simp] theorem placeWord_head (w : OpWord) : (s.placeWord w).head = s.head := rfl
@[simp] theorem placeWord_tail (w : OpWord) : (s.placeWord w).tail = s.tail := rfl
@[simp] theorem placeWord_bitsExpected (w : OpWord) : (s.placeWord w).bitsExpected = s.bitsExpected := rfl
@[simp] theorem placeWord_bitsReceived (w : OpWord) : (s.placeWord w).bitsReceived = s.bitsReceived := rfl
@[simp] theorem placeWord_dataLength (w : OpWord) : (s.placeWord w).dataLength = s.dataLength := rfl
@[simp] theorem placeWord_data (w : OpWord) : (s.placeWord w).data = s.data := rfl
@[simp] theorem placeWord_checksum (w : OpWord) : (s.placeWord w).checksum = s.checksum := rfl
@[simp] theorem placeWord_seq (w : OpWord) : (s.placeWord w).seq = s.seq := rfl
@[simp] theorem placeWord_pos (w : OpWord) : (s.placeWord w).pos = s.pos := rfl
@[simp] theorem placeWord_outActive (w : OpWord) : (s.placeWord w).outActive = s.outActive := rfl
@[simp] theorem placeWord_remaining (w : OpWord) : (s.placeWord w).remaining = s.remaining := rfl
@[simp] theorem placeWord_timerEnabled (w : OpWord) : (s.placeWord w).timerEnabled = s.timerEnabled := rfl
@[simp] theorem placeWord_fault (w : OpWord) : (s.placeWord w).fault = s.fault := rfl
@[simp] theorem placeWord_refused (w : OpWord) : (s.placeWord w).refused = s.refused := rfl
@[simp] theorem placeWord_refusals (w : OpWord) : (s.placeWord w).refusals = s.refusals := rfl
@[simp] theorem placeWord_trace (w : OpWord) : (s.placeWord w).trace = s.trace := rfl
@[simp] theorem placeWord_returned (w : OpWord) : (s.placeWord w).returned = s.returned := rfl
@[simp] theorem placeWord_params (w : OpWord) : (s.placeWord w).params = s.params := rfl
@[simp] theorem placeWord_schedule (w : OpWord) : (s.placeWord w).schedule = .issue w :: s.schedule := rfl
@[simp] theorem placeWord_draining (w : OpWord) : (s.placeWord w).draining = false := rfl
@[simp] theorem placeWord_draws (w : OpWord) : (s.placeWord w).draws = s.draws := rfl

@[simp] theorem drive_prevTs (l : Bool) : (s.drive l).prevTs = s.prevTs := by
  unfold State.drive; split <;> rfl
@[simp] theorem drive_ring (l : Bool) : (s.drive l).ring = s.ring := by
  unfold State.drive; split <;> rfl
@[simp] theorem drive_head (l : Bool) : (s.drive l).head = s.head := by
  unfold State.drive; split <;> rfl
@[simp] theorem drive_tail (l : Bool) : (s.drive l).tail = s.tail := by
  unfold State.drive; split <;> rfl
@[simp] theorem drive_bitsExpected (l : Bool) : (s.drive l).bitsExpected = s.bitsExpected := by
  unfold State.drive; split <;> rfl
@[simp] theorem drive_bitsReceived (l : Bool) : (s.drive l).bitsReceived = s.bitsReceived := by
  unfold State.drive; split <;> rfl
@[simp] theorem drive_dataLength (l : Bool) : (s.drive l).dataLength = s.dataLength := by
  unfold State.drive; split <;> rfl
@[simp] theorem drive_data (l : Bool) : (s.drive l).data = s.data := by
  unfold State.drive; split <;> rfl
@[simp] theorem drive_checksum (l : Bool) : (s.drive l).checksum = s.checksum := by
  unfold State.drive; split <;> rfl
@[simp] theorem drive_seq (l : Bool) : (s.drive l).seq = s.seq := by
  unfold State.drive; split <;> rfl
@[simp] theorem drive_pos (l : Bool) : (s.drive l).pos = s.pos := by
  unfold State.drive; split <;> rfl
@[simp] theorem drive_outActive (l : Bool) : (s.drive l).outActive = l := by
  unfold State.drive; split <;> simp_all
@[simp] theorem drive_remaining (l : Bool) : (s.drive l).remaining = s.remaining := by
  unfold State.drive; split <;> rfl
@[simp] theorem drive_timerEnabled (l : Bool) : (s.drive l).timerEnabled = s.timerEnabled := by
  unfold State.drive; split <;> rfl
@[simp] theorem drive_fault (l : Bool) : (s.drive l).fault = s.fault := by
  unfold State.drive; split <;> rfl
@[simp] theorem drive_refused (l : Bool) : (s.drive l).refused = s.refused := by
  unfold State.drive; split <;> rfl
@[simp] theorem drive_refusals (l : Bool) : (s.drive l).refusals = s.refusals := by
  unfold State.drive; split <;> rfl
@[simp] theorem drive_returned (l : Bool) : (s.drive l).returned = s.returned := by
  unfold State.drive; split <;> rfl
@[simp] theorem drive_params (l : Bool) : (s.drive l).params = s.params := by
  unfold State.drive; split <;> rfl
@[simp] theorem drive_schedule (l : Bool) : (s.drive l).schedule = s.schedule := by
  unfold State.drive; split <;> rfl
@[simp] theorem drive_draining (l : Bool) : (s.drive l).draining = s.draining := by
  unfold State.drive; split <;> rfl
@[simp] theorem drive_draws (l : Bool) : (s.drive l).draws = s.draws := by
  unfold State.drive; split <;> rfl

theorem drive_trace (l : Bool) :
    (s.drive l).trace = s.trace ++ (if s.outActive = l then [] else [.out l]) := by
  unfold State.drive; split <;> simp_all

/-- All that driving the line can do. -/
theorem drive_eq (l : Bool) : s.drive l =
    { s with outActive := l, trace := s.trace ++ (if s.outActive = l then [] else [.out l]) } := by
  unfold State.drive; split
  · next h => subst h; simp
  · rfl

end Sys2Proof.Machine
end

