-- ==== Sys2Proof/Laws/Ops.lean ====
section
/-!
SUPPORT. What the shared operations do: index arithmetic, the two arrays, push, pop and the writing of
a sequence, one lemma each.
-/

namespace Sys2Proof.Machine

/-- The mask of R61 changes nothing in a 6-bit index. -/
@[simp] theorem nextIndex_eq (i : Index) : nextIndex i = i + 1 := by
  revert i; decide

theorem nextIndex_toNat (i : Index) : (nextIndex i).toNat = (i.toNat + 1) % 64 := by
  simp [BitVec.toNat_add]

theorem entryAt_withEntry_same (t : Table) (i : Index) (e : Entry) :
    entryAt (withEntry t i e) i = e := by
  simp [entryAt, withEntry]

theorem entryAt_withEntry_ne (t : Table) {i j : Index} (e : Entry) (h : j ≠ i) :
    entryAt (withEntry t i e) j = entryAt t j := by
  have hn : i.toNat ≠ j.toNat := fun hc => h (BitVec.eq_of_toNat_eq hc.symm)
  simp [entryAt, withEntry, Vector.getElem_set_ne _ _ hn]

/-- A read after a write: the entry written, every other place as before. -/
theorem entryAt_withEntry (t : Table) (i j : Index) (e : Entry) :
    entryAt (withEntry t i e) j = if j = i then e else entryAt t j := by
  split
  · next h => subst h; exact entryAt_withEntry_same t j e
  · next h => exact entryAt_withEntry_ne t e h

/-- Two arrays with the same entries are the same data. -/
theorem table_ext {t u : Table} (h : ∀ i, entryAt t i = entryAt u i) : t = u := by
  apply Vector.ext
  intro i hi
  have := h (BitVec.ofNat 6 i)
  simpa [entryAt, BitVec.toNat_ofNat, Nat.mod_eq_of_lt hi] using this

/-- Entry `j` after entries are written from `i` up. -/
theorem getElem_writeEntries (es : List Entry) (t : Table) (i j : Nat) (hj : j < 64) :
    (writeEntries t i es)[j] =
      if i ≤ j ∧ j < i + es.length then es.getD (j - i) 0 else t[j] := by
  induction es generalizing t i with
  | nil =>
    rw [writeEntries, if_neg]
    simp
  | cons e es ih =>
    rw [writeEntries]
    by_cases hi : i < 64
    · simp only [dif_pos hi, ih]
      rcases Nat.lt_trichotomy i j with hlt | rfl | hgt
      · obtain ⟨k, rfl⟩ : ∃ k, j = i + 1 + k := ⟨j - i - 1, by omega⟩
        have h1 : i + 1 + k - (i + 1) = k := by omega
        have h2 : i + 1 + k - i = k + 1 := by omega
        have h3 : (i + 1 + k < i + 1 + es.length) = (i + 1 + k < i + (e :: es).length) := by
          simp only [List.length_cons, eq_iff_iff]; omega
        have h4 : i ≤ i + 1 + k := by omega
        simp [h1, h2, h3, h4, Vector.getElem_set_ne _ _ hlt.ne]
      · simp
      · rw [if_neg (by omega), if_neg (by omega), Vector.getElem_set_ne _ _ hgt.ne']
    · simp only [dif_neg hi]
      rw [if_neg (by omega)]

/-- The pop of an empty ring. -/
theorem pop_of_empty {s : State} (h : s.head = s.tail) : s.pop = none := by simp [State.pop, h]

/-- The pop of a ring with an unread entry. -/
theorem pop_of_nonempty {s : State} (h : s.head ≠ s.tail) :
    s.pop = some ((entryAt s.ring s.tail).zeroExtend 32, s.advanceTail) := by simp [State.pop, h]

/-- Everything a pop can do. -/
theorem pop_cases (s : State) :
    (s.head = s.tail ∧ s.pop = none) ∨
    (s.head ≠ s.tail ∧
      s.pop = some ((entryAt s.ring s.tail).zeroExtend 32, s.advanceTail)) := by
  by_cases h : s.head = s.tail
  · exact .inl ⟨h, pop_of_empty h⟩
  · exact .inr ⟨h, pop_of_nonempty h⟩

/-- The ring after a push: the new entry at `head`, every other entry as before (R132). -/
theorem push_entry (s : State) (q : Nat) (i : Index) :
    entryAt (s.push q).ring i = if i = s.head then BitVec.ofNat 8 q else entryAt s.ring i := by
  simp [entryAt_withEntry]

theorem occupancy_lt (s : State) : s.occupancy < 64 := (s.head - s.tail).isLt

@[simp] theorem unread_length (s : State) : s.unread.length = s.occupancy := by simp [State.unread]

theorem occupancy_eq_zero_iff (s : State) : s.occupancy = 0 ↔ s.head = s.tail := by
  unfold State.occupancy
  constructor
  · intro h
    have : s.head - s.tail = 0 := BitVec.eq_of_toNat_eq (by simpa using h)
    exact (BitVec.sub_eq_iff_eq_add.mp this).trans (by simp)
  · intro h; simp [h]

theorem accept_lt {mode : WindowMode} {d : Nat} (h : accept mode d (intervalUnits d) = true) :
    intervalUnits d < 200 := by
  cases mode
  · exact (of_decide_eq_true h).2
  · have := (of_decide_eq_true h).2
    exact Nat.div_lt_of_lt_mul this

end Sys2Proof.Machine
end

