-- ==== Sys2Proof/Laws/PerInstr.lean ====
section
/-!
SUPPORT. One lemma per operation about its word: the operation code selects the operation, and every
reserved or unused field is 0 (spec/30_encoding.md R99, R100).
-/

namespace Sys2Proof.Laws.Encoded

/-- The word of `i` names the operation of `i` and sets no field that the operation does not use. -/
def Statement (i : Instr) : Prop :=
  operationOf (opField (encode i)) = some i.operation ∧ unusedFieldSet i.operation (encode i) = false

theorem edge (ts : Timestamp) : Statement (.edge ts) := by
  refine ⟨?_, ?_⟩
  · simp only [encode, opField_wordOf]; rfl
  · simp [encode, unusedFieldSet, Instr.operation, Operation.usesArg]

theorem pop : Statement .pop := by unfold Statement; decide

theorem rxstep (v : Interval) : Statement (.rxstep v) := by
  refine ⟨?_, ?_⟩
  · simp only [encode, opField_wordOf]; rfl
  · simp [encode, unusedFieldSet, Instr.operation, Operation.usesArg]

theorem poll : Statement .poll := by unfold Statement; decide

theorem drain : Statement .drain := by unfold Statement; decide

theorem send2 (value : BitVec 32) : Statement (.send2 value) := by
  refine ⟨?_, ?_⟩
  · simp only [encode, opField_wordOf]; rfl
  · simp [encode, unusedFieldSet, Instr.operation, Operation.usesLen, Operation.usesArg]

theorem send4 (value : BitVec 32) : Statement (.send4 value) := by
  refine ⟨?_, ?_⟩
  · simp only [encode, opField_wordOf]; rfl
  · simp [encode, unusedFieldSet, Instr.operation, Operation.usesLen, Operation.usesArg]

theorem tick : Statement .tick := by unfold Statement; decide

theorem status : Statement .status := by unfold Statement; decide

theorem reset : Statement .reset := by unfold Statement; decide

end Sys2Proof.Laws.Encoded
end

