-- ==== Sys2Proof/Laws/Receiver.lean ====
section
/-!
SUPPORT. What the receiver, POLL and DRAIN can do (spec/41_receiver.md), each said once.
-/

namespace Sys2Proof.Machine

/-- When an interval is in a band (R91, R160). -/
theorem band_eq_start_iff (v : Nat) : band v = .start ↔ 50 < v ∧ v < 70 := by
  unfold band
  split_ifs <;> simp <;> omega

theorem band_eq_zero_iff (v : Nat) : band v = .zero ↔ 10 < v ∧ v < 30 := by
  unfold band
  split_ifs <;> simp <;> omega

theorem band_eq_one_iff (v : Nat) : band v = .one ↔ 30 < v ∧ v < 50 := by
  unfold band
  split_ifs <;> simp <;> omega

theorem band_eq_other_iff (v : Nat) :
    band v = .other ↔ v ≤ 10 ∨ v = 30 ∨ v = 50 ∨ 70 ≤ v := by
  unfold band
  split_ifs <;> simp <;> omega

/-- The band of the symbol that carries `b`. -/
def bandOfBit (b : Bool) : Band := if b then .one else .zero

/-- Everything an in-band bit can do (R161, R163 to R166). -/
theorem bandBit_cases (b : Bool) (s : State) :
    (s.bitsExpected = 0 ∧ s.bandBit b = .ok s) ∨
    (s.bitsExpected ≠ 0 ∧ s.bitsReceived = 0xFFFFFFFF ∧ s.bandBit b = .error .rxCountWrap) ∨
    (s.bitsExpected ≠ 0 ∧ s.bitsReceived = 0 ∧ s.bandBit b = .ok (s.lengthBit b).countBit) ∨
    (s.bitsExpected ≠ 0 ∧ s.bitsReceived ≠ 0 ∧ s.bitsReceived ≠ 0xFFFFFFFF ∧
      s.bitsReceived = s.bitsExpected - 1 ∧ s.bandBit b = .ok (s.checkBit b).countBit) ∨
    (s.bitsExpected ≠ 0 ∧ s.bitsReceived ≠ 0 ∧ s.bitsReceived ≠ 0xFFFFFFFF ∧
      s.bitsReceived ≠ s.bitsExpected - 1 ∧ s.bandBit b = .ok (s.dataBit b).countBit) := by
  unfold State.bandBit
  split_ifs <;> simp_all

/-- The receiver on an interval, by its band. -/
theorem receive_of_start {v : Interval} (h : band v.toNat = .start) (s : State) :
    s.receive v = .ok s.startMarker := by simp [State.receive, h]

theorem receive_of_other {v : Interval} (h : band v.toNat = .other) (s : State) :
    s.receive v = .ok s.noise := by simp [State.receive, h]

theorem receive_of_bit {v : Interval} {b : Bool} (h : band v.toNat = bandOfBit b) (s : State) :
    s.receive v = s.bandBit b := by
  cases b <;> simp_all [State.receive, bandOfBit]

/-- Everything the receiver can do with an interval (R161). -/
theorem receive_cases (v : Interval) (s : State) :
    (band v.toNat = .start ∧ s.receive v = .ok s.startMarker) ∨
    (band v.toNat = .other ∧ s.receive v = .ok s.noise) ∨
    (∃ b, band v.toNat = bandOfBit b ∧ s.receive v = s.bandBit b) := by
  cases h : band v.toNat with
  | start => exact .inl ⟨rfl, receive_of_start h s⟩
  | other => exact .inr (.inl ⟨rfl, receive_of_other h s⟩)
  | zero => exact .inr (.inr ⟨false, rfl, receive_of_bit (b := false) h s⟩)
  | one => exact .inr (.inr ⟨true, rfl, receive_of_bit (b := true) h s⟩)

/-- What the receiver writes: its own five registers and the trace. -/
theorem receive_frame {v : Interval} {s t : State} (h : s.receive v = .ok t) :
    t = { s with bitsExpected := t.bitsExpected, bitsReceived := t.bitsReceived,
                 dataLength := t.dataLength, data := t.data, checksum := t.checksum,
                 trace := t.trace } := by
  obtain ⟨-, e⟩ | ⟨-, e⟩ | ⟨b, -, e⟩ := receive_cases v s
  · rw [e] at h; cases h; rfl
  · rw [e] at h; cases h; rfl
  · rw [e] at h
    obtain ⟨-, e⟩ | ⟨-, -, e⟩ | ⟨-, -, e⟩ | ⟨-, -, -, -, e⟩ | ⟨-, -, -, -, e⟩ := bandBit_cases b s <;>
      rw [e] at h <;> cases h
    · rfl
    · rfl
    · unfold State.checkBit; split <;> rfl
    · rfl

/-- The registers outside the receiver keep their values, one equation each. -/
theorem receive_keeps {v : Interval} {s t : State} (h : s.receive v = .ok t) :
    t.prevTs = s.prevTs ∧ t.ring = s.ring ∧ t.head = s.head ∧ t.tail = s.tail ∧ t.seq = s.seq ∧
    t.pos = s.pos ∧ t.outActive = s.outActive ∧ t.remaining = s.remaining ∧
    t.timerEnabled = s.timerEnabled ∧ t.fault = s.fault := by
  rw [receive_frame h]
  simp

/-- The receiver raises nothing but the counter's wrap, on an in-band bit (R264). -/
theorem receive_error {v : Interval} {s : State} {c : FaultCode} (h : s.receive v = .error c) :
    c = .rxCountWrap ∧ s.bitsExpected ≠ 0 ∧ s.bitsReceived = 0xFFFFFFFF ∧
      ∃ b, band v.toNat = bandOfBit b := by
  obtain ⟨-, e⟩ | ⟨-, e⟩ | ⟨b, hb, e⟩ := receive_cases v s
  · rw [e] at h; cases h
  · rw [e] at h; cases h
  · rw [e] at h
    obtain ⟨-, e⟩ | ⟨h0, h1, e⟩ | ⟨-, -, e⟩ | ⟨-, -, -, -, e⟩ | ⟨-, -, -, -, e⟩ := bandBit_cases b s <;>
      rw [e] at h <;> cases h
    exact ⟨rfl, h0, h1, b, hb⟩

/-- The receiver's result does not depend on `tail`, the schedule or the DRAIN in progress, and leaves
them as they are. -/
theorem receive_of_run (v : Interval) (s : State) (tl : Index) (sch : List Turn) (dr : Bool) :
    ({ s with tail := tl, schedule := sch, draining := dr } : State).receive v =
      (s.receive v).map fun t => { t with tail := tl, schedule := sch, draining := dr } := by
  unfold State.receive
  cases band v.toNat <;> simp only [State.bandBit] <;> (try split_ifs) <;> try rfl
  all_goals
    simp only [Except.map, State.checkBit]
    split <;> rfl

/-- What a poll can do (R169). -/
theorem poll_cases (s : State) :
    (s.head = s.tail ∧ s.poll = .empty) ∨
    (∃ v t, s.head ≠ s.tail ∧ v = (entryAt s.ring s.tail).zeroExtend 32 ∧
      s.advanceTail.receive v = .ok t ∧ s.poll = .took v t) ∨
    (∃ v c, s.head ≠ s.tail ∧ v = (entryAt s.ring s.tail).zeroExtend 32 ∧
      s.advanceTail.receive v = .error c ∧ s.poll = .raised c s.advanceTail) := by
  obtain ⟨h, e⟩ | ⟨h, e⟩ := pop_cases s
  · exact .inl ⟨h, by simp [State.poll, e]⟩
  · cases hr : s.advanceTail.receive ((entryAt s.ring s.tail).zeroExtend 32) with
    | ok t => exact .inr (.inl ⟨_, t, h, rfl, hr, by unfold State.poll; rw [e]; dsimp only; rw [hr]⟩)
    | error c =>
      exact .inr (.inr ⟨_, c, h, rfl, hr, by unfold State.poll; rw [e]; dsimp only; rw [hr]⟩)

end Sys2Proof.Machine
end

