-- ==== Sys2Proof/Laws/Transmit.lean ====
section
/-!
SUPPORT. What SEND and TICK can do (spec/42_transmit.md), and the playback sequence entry by entry
(R201, R202).
-/

namespace Sys2Proof.Machine

@[simp] theorem dataEntries_length (value : BitVec 32) (n : Nat) :
    (dataEntries value n).length = n := by
  induction n with
  | zero => rfl
  | succ n ih => simp [dataEntries, ih]

/-- The data entries, most significant bit first (R201). -/
theorem dataEntries_getElem? (value : BitVec 32) (n j : Nat) (h : j < n) :
    (dataEntries value n)[j]? = some (symbolTicks (value.getLsbD (n - 1 - j))) := by
  induction n generalizing j with
  | zero => omega
  | succ n ih =>
    cases j with
    | zero => simp [dataEntries]
    | succ j =>
      have hj : n + 1 - 1 - (j + 1) = n - 1 - j := by omega
      rw [dataEntries, List.getElem?_cons_succ, ih j (by omega), hj]

@[simp] theorem playback_length (c : PayloadClass) (value : BitVec 32) :
    (playback c value).length = dataBits c + 4 := by simp [playback]

theorem dataBits_le (c : PayloadClass) : dataBits c ≤ 32 := by cases c <;> decide

/-- The parity is the seed with one flip per 1 bit (R97). -/
theorem foldParity_eq (value : BitVec 32) (p : Bool) (n : Nat) :
    foldParity value p n = (p ^^ decide (popcountBelow value n % 2 = 1)) := by
  induction n generalizing p with
  | zero => simp [foldParity, popcountBelow]
  | succ n ih =>
    rw [foldParity, ih, popcountBelow]
    cases value.getLsbD n <;> rcases Nat.mod_two_eq_zero_or_one (popcountBelow value n) with h | h <;>
      simp [h, Nat.add_mod]

/-- The transmitted checksum bit is 1 exactly when the data bits hold an even number of ones (R202). -/
theorem checksumBit_eq (c : PayloadClass) (value : BitVec 32) :
    checksumBit c value = decide (popcountBelow value (dataBits c) % 2 = 0) := by
  rw [checksumBit, foldParity_eq]
  rcases Nat.mod_two_eq_zero_or_one (popcountBelow value (dataBits c)) with h | h <;>
    simp [paritySeed, h]

/-- The sequence entry by entry (R201). -/
theorem playbackEntry_start (c : PayloadClass) (value : BitVec 32) : playbackEntry c value 0 = 6 := rfl

theorem playbackEntry_length (c : PayloadClass) (value : BitVec 32) :
    playbackEntry c value 1 = symbolTicks (lengthBitOf c) := rfl

theorem playbackEntry_data (c : PayloadClass) (value : BitVec 32) {j : Nat} (h : j < dataBits c) :
    playbackEntry c value (2 + j) = symbolTicks (value.getLsbD (dataBits c - 1 - j)) := by
  have h2 : 2 + j = j + 1 + 1 := by omega
  have hl : j < (dataEntries value (dataBits c)).length := by simpa using h
  rw [playbackEntry, List.getD_eq_getElem?_getD, playback, h2, List.getElem?_cons_succ,
    List.getElem?_cons_succ, List.getElem?_append_left hl, dataEntries_getElem? value _ j h]
  rfl

theorem playbackEntry_checksum (c : PayloadClass) (value : BitVec 32) :
    playbackEntry c value (dataBits c + 2) = symbolTicks (checksumBit c value) := by
  simp [playbackEntry, playback]

theorem playbackEntry_sentinel (c : PayloadClass) (value : BitVec 32) :
    playbackEntry c value (dataBits c + 3) = 0 := by
  simp [playbackEntry, playback, sentinel]

theorem symbolTicks_pos (b : Bool) : 0 < symbolTicks b := by cases b <;> decide

/-- Every index of the sequence is one of R201's five kinds. -/
theorem index_cases (c : PayloadClass) {j : Nat} (h : j < dataBits c + 4) :
    j = 0 ∨ j = 1 ∨ (∃ k, k < dataBits c ∧ j = 2 + k) ∨ j = dataBits c + 2 ∨ j = dataBits c + 3 := by
  rcases Nat.lt_or_ge j 2 with h2 | h2
  · omega
  · rcases Nat.lt_or_ge j (dataBits c + 2) with h3 | h3
    · exact .inr (.inr (.inl ⟨j - 2, by omega, by omega⟩))
    · omega

/-- An entry before the sentinel is a symbol: 2, 4 or 6 ticks (R92, R107). -/
theorem playbackEntry_symbol (c : PayloadClass) (value : BitVec 32) {j : Nat}
    (h : j < dataBits c + 3) :
    playbackEntry c value j = 2 ∨ playbackEntry c value j = 4 ∨ playbackEntry c value j = 6 := by
  have hs : ∀ b, symbolTicks b = 2 ∨ symbolTicks b = 4 ∨ symbolTicks b = 6 := by decide
  obtain rfl | rfl | ⟨k, hk, rfl⟩ | rfl | rfl := index_cases c (j := j) (by omega)
  · exact .inr (.inr rfl)
  · exact hs _
  · rw [playbackEntry_data c value hk]; exact hs _
  · rw [playbackEntry_checksum]; exact hs _
  · omega

theorem playbackEntry_pos (c : PayloadClass) (value : BitVec 32) {j : Nat} (h : j < dataBits c + 3) :
    0 < playbackEntry c value j := by
  obtain e | e | e := playbackEntry_symbol c value h <;> rw [e] <;> decide

/-- Everything SEND can do (R200, R263). -/
theorem send_cases (c : PayloadClass) (value : BitVec 32) (w : OpWord) (s : State) :
    (s.timerEnabled = true ∧ s.send c value w = s.raise .sendWhileBusy w) ∨
    (s.timerEnabled = false ∧ s.send c value w =
      { s with seq := writeEntries s.seq 0 (playback c value), timerEnabled := true }) := by
  cases h : s.timerEnabled <;> simp [State.send, h]

/-- `seq` after its sequence is written: the entries up to the sentinel, the rest as before (R200). -/
theorem entryAt_writeEntries_playback (t : Table) (c : PayloadClass) (value : BitVec 32) (i : Index) :
    entryAt (writeEntries t 0 (playback c value)) i =
      if i.toNat < dataBits c + 4 then playbackEntry c value i.toNat else entryAt t i := by
  simp only [entryAt, getElem_writeEntries, playback_length, playbackEntry, sentinel]
  simp

/-- `seq` after an idle SEND, entry by entry. -/
theorem seqEntry_send {c : PayloadClass} {value : BitVec 32} {w : OpWord} {s : State}
    (h : s.timerEnabled = false) {j : Nat} (hj : j < 64) :
    (s.send c value w).seqEntry j =
      if j < dataBits c + 4 then playbackEntry c value j else s.seqEntry j := by
  obtain ⟨ht, -⟩ | ⟨-, e⟩ := send_cases c value w s
  · rw [h] at ht; cases ht
  · rw [e, State.seqEntry, entryAt_writeEntries_playback]
    simp [State.seqEntry, Nat.mod_eq_of_lt hj]

/-- `Playing` reads four registers only. -/
theorem playing_of_eq {c : PayloadClass} {value : BitVec 32} {s t : State} (h : s.Playing c value)
    (hseq : t.seq = s.seq) (hpos : t.pos = s.pos) (hrem : t.remaining = s.remaining)
    (hout : t.outActive = s.outActive) : t.Playing c value := by
  obtain ⟨h1, h2, h3, h4, h5⟩ := h
  refine ⟨?_, ?_, ?_, ?_, ?_⟩ <;> simp_all [State.seqEntry]

/-- Everything one tick of an enabled timer can do (R203). -/
theorem playTick_cases (s : State) :
    (1 < s.remaining ∧ s.playTick = { s with remaining := s.remaining - 1 }) ∨
    (s.remaining ≤ 1 ∧ entryAt s.seq s.pos ≠ 0 ∧
      s.playTick = { s with
        remaining := entryAt s.seq s.pos, pos := s.pos + 1, outActive := !s.outActive,
        trace := s.trace ++ [.out (!s.outActive)] }) ∨
    (s.remaining ≤ 1 ∧ entryAt s.seq s.pos = 0 ∧
      s.playTick = { s with
        remaining := 0, pos := 0, outActive := false, timerEnabled := false,
        trace := s.trace ++ (if s.outActive then [.out false] else []) }) := by
  have hcount : s.countDown = { s with remaining := s.remaining - (if 0 < s.remaining then 1 else 0) } := by
    unfold State.countDown; split <;> simp
  have hzero : s.remaining - (if 0 < s.remaining then 1 else 0) = 0 ↔ s.remaining ≤ 1 := by
    generalize s.remaining = r; revert r; decide
  by_cases h1 : s.remaining ≤ 1
  · have hload : s.playTick = s.countDown.loadEntry := by
      rw [State.playTick, if_pos]; rw [hcount]; exact hzero.mpr h1
    by_cases he : entryAt s.seq s.pos = 0
    · refine .inr (.inr ⟨h1, he, ?_⟩)
      rw [hload, hcount]
      simp only [State.loadEntry, he, State.stopPlayback, drive_eq]
      cases s.outActive <;> simp
    · refine .inr (.inl ⟨h1, he, ?_⟩)
      have hpos : 0 < entryAt s.seq s.pos := by
        generalize entryAt s.seq s.pos = e at he
        revert e; decide
      rw [hload, hcount]
      simp only [State.loadEntry, hpos, if_pos, drive_eq]
      cases s.outActive <;> simp
  · refine .inl ⟨by simpa using h1, ?_⟩
    have hp : 0 < s.remaining := by
      have hr : ∀ r : BitVec 8, ¬ r ≤ 1 → 0 < r := by decide
      exact hr _ h1
    rw [State.playTick, if_neg]
    · rw [hcount, if_pos hp]
    · rw [hcount]; exact fun h => h1 (hzero.mp h)

end Sys2Proof.Machine
end

