-- ==== Sys2Proof/Laws/Step.lean ====
section
/-!
SUPPORT. What a turn of the run can be and what a step can do (spec/60_exceptions.md R261, R269, R277),
and operations run in order.
-/

namespace Sys2Proof.Machine

/-- Resuming runs DRAIN or passes the turn. -/
theorem resumeDrain_cases (s : State) :
    (s.draining = true ∧ s.resumeDrain = .run .drain s) ∨
    (s.draining = false ∧ s.resumeDrain = .idle s) := by
  cases h : s.draining <;> simp [State.resumeDrain, h]

/-- The turn that the schedule gives a block without a fault. -/
theorem nextTurn_of_clean {s : State} (hf : s.fault = none) :
    s.nextTurn =
      match s.schedule with
      | [] => s.resumeDrain
      | .resume :: rest => ({ s with schedule := rest } : State).resumeDrain
      | .issue w :: rest =>
        if s.mustWait w then .run .drain s
        else
          match decode w with
          | .ok i => .run i { s with schedule := rest }
          | .error c => .refuse c { s with schedule := rest } :=
  if_neg (by simp [hf])

/-- Everything the next turn can be. -/
theorem nextTurn_cases (s : State) :
    (s.fault ≠ none ∧ s.nextTurn = .stopped) ∨
    (s.fault = none ∧ ∃ sch, s.nextTurn = .idle { s with schedule := sch }) ∨
    (s.fault = none ∧ ∃ i sch, s.nextTurn = .run i { s with schedule := sch }) ∨
    (s.fault = none ∧ ∃ c sch, s.nextTurn = .refuse c { s with schedule := sch }) := by
  by_cases hf : s.fault = none
  · refine .inr ?_
    rw [nextTurn_of_clean hf]
    have hres : ∀ sch, (∃ sch', ({ s with schedule := sch } : State).resumeDrain =
          .idle { s with schedule := sch' }) ∨
        (∃ i sch', ({ s with schedule := sch } : State).resumeDrain =
          .run i { s with schedule := sch' }) := fun sch => by
      obtain ⟨-, e⟩ | ⟨-, e⟩ := resumeDrain_cases { s with schedule := sch }
      · exact .inr ⟨_, sch, e⟩
      · exact .inl ⟨sch, e⟩
    split
    · obtain h | h := hres s.schedule
      · exact .inl ⟨hf, h⟩
      · exact .inr (.inl ⟨hf, h⟩)
    · next rest _ =>
      obtain h | h := hres rest
      · exact .inl ⟨hf, h⟩
      · exact .inr (.inl ⟨hf, h⟩)
    · next w rest _ =>
      split
      · exact .inr (.inl ⟨hf, _, s.schedule, rfl⟩)
      · cases decode w with
        | ok i => exact .inr (.inl ⟨hf, i, rest, rfl⟩)
        | error c => exact .inr (.inr ⟨hf, c, rest, rfl⟩)
  · exact .inl ⟨hf, by simp [State.nextTurn, Option.isSome_iff_ne_none, hf]⟩

/-- Everything a step that has a next state can do: nothing but take the turn, run one operation, or
record a refusal. -/
theorem step_next_cases {s t : State} (h : step s = .next t) :
    s.fault = none ∧ ∃ sch,
      t = { s with schedule := sch } ∨
      (∃ i, exec i { s with schedule := sch } = .next t) ∨
      (∃ c, t = ({ s with schedule := sch } : State).refuse c) := by
  obtain ⟨-, e⟩ | ⟨hf, sch, e⟩ | ⟨hf, i, sch, e⟩ | ⟨hf, c, sch, e⟩ := nextTurn_cases s <;>
    simp only [step, e] at h
  · cases h
  · cases h; exact ⟨hf, sch, .inl rfl⟩
  · exact ⟨hf, sch, .inr (.inl ⟨i, h⟩)⟩
  · cases h; exact ⟨hf, sch, .inr (.inr ⟨c, rfl⟩)⟩

/-- A property that ignores the schedule and the refusals, and that every operation keeps, is kept by
every step. -/
theorem step_keeps {P : State → Prop}
    (hsch : ∀ s sch, P s → P { s with schedule := sch })
    (href : ∀ s c, P s → P (s.refuse c))
    (hexec : ∀ i s t, P s → exec i s = .next t → P t) {s t : State} (hp : P s)
    (h : step s = .next t) : P t := by
  obtain ⟨-, sch, rfl | ⟨i, hi⟩ | ⟨c, rfl⟩⟩ := step_next_cases h
  · exact hsch s sch hp
  · exact hexec i _ t (hsch s sch hp) hi
  · exact href _ c (hsch s sch hp)

/-- A run's first step has a next state, and the rest of the run goes on from it. -/
theorem run_of_next {s t : State} (n : Nat) (h : step s = .next t) :
    Host.Core.run Sys2Proof.core (n + 1) s = Host.Core.run Sys2Proof.core n t := by
  have h' : Sys2Proof.core.step s = .next t := h
  simp only [Host.Core.run, h']

/-- A run's first step stops it. -/
theorem run_of_fault {s : State} {r : Fault} (n : Nat) (h : step s = .fault r) :
    Host.Core.run Sys2Proof.core (n + 1) s = .fault r := by
  have h' : Sys2Proof.core.step s = .fault r := h
  simp only [Host.Core.run, h']

@[simp] theorem runInstrs_nil (s : State) : runInstrs [] s = .next s := rfl

/-- The first operation runs, then the rest from where it ends. -/
theorem runInstrs_cons {i : Instr} {is : List Instr} {s t : State} (h : exec i s = .next t) :
    runInstrs (i :: is) s = runInstrs is t := by simp [runInstrs, h]

/-- A run in two parts. -/
theorem runInstrs_append {is js : List Instr} {s t : State} (h : runInstrs is s = .next t) :
    runInstrs (is ++ js) s = runInstrs js t := by
  induction is generalizing s with
  | nil => simp at h; subst h; rfl
  | cons i is ih =>
    rw [runInstrs] at h
    rw [List.cons_append, runInstrs]
    cases e : exec i s with
    | next u => rw [e] at h; exact ih h
    | fault r => rw [e] at h; cases h
    | refused r => rw [e] at h; cases h

/-- Ticks in two parts. -/
theorem runTicks_add {m n : Nat} {s t : State} (h : runTicks m s = .next t) :
    runTicks (m + n) s = runTicks n t := by
  unfold runTicks at *
  rw [← List.replicate_append_replicate]
  exact runInstrs_append h

end Sys2Proof.Machine
end

