-- ==== Sys2Proof/Tests/Slice0.lean ====
section
/-!
SUPPORT. The model's own tests: the assembler's checks, words written out from the encoding of
spec/30_encoding.md R99 and R100, one step of each operation from the vectors of
spec/95_test_vectors.md, and a witness for the hypotheses of every statement.
-/

namespace Sys2Proof.Tests

open Sys2Proof Sys2Proof.Machine

/-- A small state: power-on with the launch premise `prev_ts = 0` and arrays of zeros. -/
def base : State :=
  State.powerOn Params.nominal 0 (Vector.replicate 64 0) (Vector.replicate 64 0)

/-- The next state of an outcome, `base` where there is none. -/
def after : Host.Outcome State Fault Refusal → State
  | .next s => s
  | _ => base

/-- The outcome is a next state. -/
def completes : Host.Outcome State Fault Refusal → Bool
  | .next _ => true
  | _ => false

/-- The receiver's registers in the order be, br, dl, data, cs of spec/95. -/
def rx (be br : BitVec 32) (dl : BitVec 8) (data : BitVec 32) (cs : Bool) : State :=
  { base with bitsExpected := be, bitsReceived := br, dataLength := dl, data := data, checksum := cs }

/-- The receiver's registers of a state, as `rx` lists them. -/
def rxOf (s : State) : BitVec 32 × BitVec 32 × BitVec 8 × BitVec 32 × Bool :=
  (s.bitsExpected, s.bitsReceived, s.dataLength, s.data, s.checksum)

/-- The block after `SEND 2, 0xABCD`. -/
def busy : State := after (exec (.send2 0xABCD) base)

/-- A ring with entry `e` unread at index `i`. -/
def holding (i : Index) (e : Entry) : State :=
  { base with ring := withEntry base.ring i e, head := i + 1, tail := i }

/-! ### Well-formed lines (R106): an ill-formed line for each check -/

theorem test_wf_edge_operand : (Line.edge (2 ^ 32)).wellFormed = false := by decide
theorem test_wf_rxstep_operand : (Line.rxstep (2 ^ 32)).wellFormed = false := by decide
theorem test_wf_send_length : (Line.send 3 0).wellFormed = false := by decide
theorem test_wf_send_value : (Line.send 2 (2 ^ 32)).wellFormed = false := by decide
theorem test_wf_edges_operand : (Pseudo.edges (2 ^ 32) []).wellFormed = false := by decide
theorem test_wf_rxframe_length : (Pseudo.rxframe 0 0).wellFormed = false := by decide
theorem test_wf_rxframe_value : (Pseudo.rxframe 4 (2 ^ 32)).wellFormed = false := by decide
theorem test_wf_sendwait_length : (Pseudo.sendwait 1 0).wellFormed = false := by decide
theorem test_wf_sendwait_value : (Pseudo.sendwait 2 (2 ^ 32)).wellFormed = false := by decide

/-! ### Decode (R99 to R102): words written from the encoding, and V10 -/

theorem test_decode_edge : decode 0x01000000FFFFFFFF = .ok (.edge 0xFFFFFFFF) := by decide
theorem test_decode_pop : decode 0x0200000000000000 = .ok .pop := by decide
theorem test_decode_rxstep : decode 0x0300000000000014 = .ok (.rxstep 20) := by decide
theorem test_decode_poll : decode 0x0400000000000000 = .ok .poll := by decide
theorem test_decode_drain : decode 0x0500000000000000 = .ok .drain := by decide
theorem test_decode_send2 : decode 0x0600000200010000 = .ok (.send2 0x10000) := by decide
theorem test_decode_send4 : decode 0x0600000412345678 = .ok (.send4 0x12345678) := by decide
theorem test_decode_tick : decode 0x0700000000000000 = .ok .tick := by decide
theorem test_decode_status : decode 0x0800000000000000 = .ok .status := by decide
theorem test_decode_reset : decode 0x0900000000000000 = .ok .reset := by decide

theorem test_refuse_reserved_op :
    decode 0x0000000000000000 = .error .reservedOp ∧ decode 0x0A00000000000000 = .error .reservedOp ∧
    decode 0xFF00000000000000 = .error .reservedOp ∧ decode 0x0000000300000000 = .error .reservedOp := by
  decide

theorem test_refuse_reserved_field :
    decode 0x0200000000000001 = .error .reservedField ∧
    decode 0x0100000100000000 = .error .reservedField ∧
    decode 0x0300010000000014 = .error .reservedField ∧
    decode 0x0600010300000000 = .error .reservedField := by decide

theorem test_refuse_send_length :
    decode 0x0600000000000000 = .error .sendLength ∧
    decode 0x0600000300000000 = .error .sendLength := by decide

theorem test_table_word : decodeTableWord 64 0x060000020000ABCD = some (.send2 0xABCD) := by decide

/-- R261: the numbers of the codes. -/
theorem test_code_numbers :
    [FaultCode.sendWhileBusy, .rxCountWrap].map FaultCode.number = [0x01, 0x02] ∧
    [RefusalCode.reservedOp, .reservedField, .sendLength].map RefusalCode.number =
      [0x81, 0x82, 0x83] := by decide

/-! ### The assembler (R106, R108; the check after V4's table) -/

theorem test_assemble_text :
    assembleText ["SEND   2, 0xABCD  ; a message".toList, "; nothing".toList,
      "EDGES 1000000, 6000, 2000".toList] =
    some [0x060000020000ABCD, 0x01000000000F4240, 0x01000000000F59B0, 0x01000000000F6180] := by
  decide

theorem test_assemble_rxframe :
    (assembleSource (.pseudo (.rxframe 2 0xABCD))).map (·.take 6) =
      some [.rxstep 60, .rxstep 20, .rxstep 40, .rxstep 20, .rxstep 40, .rxstep 20] := by decide

theorem test_sendwait_ticks : playbackTicks .two 0xABCD = 64 ∧ playbackTicks .four 0x12345678 = 102 := by
  decide

/-! ### One step of each operation -/

/-- V2: `EDGE 1006000` after `prev_ts = 1000000`. -/
theorem test_edge_push :
    let t := after (exec (.edge 1006000) { base with prevTs := 1000000 })
    (entryAt t.ring 0, t.head, t.prevTs) = (60, 1, 1006000) := by decide

/-- V2: the two window modes on d = 1050, and a timestamp that wrapped. -/
theorem test_edge_window :
    (after (exec (.edge 1050) base)).head = 0 ∧
    (after (exec (.edge 1050) { base with params := ⟨.microseconds, 1000⟩ })).head = 1 ∧
    entryAt (after (exec (.edge 0x1000) { base with prevTs := 0xFFFFFF00 })).ring 0 = 43 := by decide

/-- V3: the index wraps. -/
theorem test_pop_wraps :
    let t := after (exec .pop (holding 63 55))
    (t.tail, t.trace) = (0, [.popped (some 55)]) := by decide

/-- V3: an empty ring. -/
theorem test_pop_empty :
    let t := after (exec .pop { base with head := 7, tail := 7 })
    (t.tail, t.trace) = (7, [.popped none]) := by decide

/-- V4, vectors 9 and 10: the checksum bit of 0xABCD. -/
theorem test_rxstep_checksum :
    (after (exec (.rxstep 40) (rx 18 17 2 0xABCD true))).trace = [.frame 2 0xABCD] ∧
    (after (exec (.rxstep 20) (rx 18 17 2 0xABCD true))).trace = [] := by decide

/-- V4, vectors 13 and 14: data after the frame's end, and bit 31 shifted out. -/
theorem test_rxstep_data :
    rxOf (after (exec (.rxstep 40) (rx 18 18 2 0xABCD true))) = (18, 19, 2, 0x1579B, false) ∧
    rxOf (after (exec (.rxstep 40) (rx 34 20 4 0x80000000 true))) = (34, 21, 4, 1, false) := by decide

/-- V5, vector 2: no POPPED event. -/
theorem test_poll_start :
    let t := after (exec .poll (holding 5 60))
    (t.tail, rxOf t) = (6, (1, 0, 0, 0, true)) ∧ t.trace = [] ∧
      t.returned = some (.interval (some 60)) := by decide

/-- V5, vector 6: the pop's advance stays when the counter wraps. -/
theorem test_poll_wrap :
    let t := after (exec .poll { holding 0 20 with bitsExpected := 18, bitsReceived := 0xFFFFFFFF })
    (t.tail, t.fault, t.bitsReceived) =
      (1, some ⟨.rxCountWrap, 0x0400000000000000⟩, 0xFFFFFFFF) := by decide

/-- V5, vector 5: between two iterations of a DRAIN an EDGE pushes 20, which the same DRAIN takes. -/
theorem test_drain_interleaved :
    let s := { holding 0 60 with schedule := [.issue 0x0500000000000000, .issue 0x01000000000007D0] }
    let t := after (Host.Core.run Sys2Proof.core 4 s)
    (t.tail, t.bitsExpected, t.dataLength, t.bitsReceived, t.draining) = (2, 18, 2, 1, false) := by
  decide

/-- V5, vector 3: an empty ring ends the DRAIN at once. -/
theorem test_drain_empty :
    let t := after (exec .drain { base with head := 9, tail := 9 })
    (t.tail, t.draining, t.trace) = (9, false, []) := by decide

/-- E3: the sequence of `SEND 2, 0xABCD`. -/
theorem test_send2_sequence :
    busy.seq.toList.take 20 =
      [6, 2, 4, 2, 4, 2, 4, 2, 4, 4, 4, 4, 2, 2, 4, 4, 2, 4, 4, 0] ∧ busy.timerEnabled = true := by
  decide

/-- P6: a SEND while busy. -/
theorem test_send2_busy :
    let t := after (exec (.send2 2) busy)
    (t.fault, t.seq) = (some ⟨.sendWhileBusy, 0x0600000200000002⟩, busy.seq) := by decide

/-- E7: the sequence of `SEND 4, 0x12345678`. -/
theorem test_send4_sequence :
    let t := after (exec (.send4 0x12345678) base)
    t.seq.toList.take 8 = [6, 4, 2, 2, 2, 4, 2, 2] ∧
    (entryAt t.seq 33, entryAt t.seq 34, entryAt t.seq 35, entryAt t.seq 36) = (2, 2, 0, 0) := by
  decide

/-- V7: the first TICK after SEND, and the last. -/
theorem test_tick_first :
    let t := after (exec .tick busy)
    (t.remaining, t.pos, t.outActive, t.trace) = (6, 1, true, [.out true]) := by decide

theorem test_tick_last :
    let t := after (exec .tick { busy with remaining := 1, pos := 19, outActive := true })
    (t.remaining, t.pos, t.outActive, t.timerEnabled, t.trace) = (0, 0, false, false, [.out false]) := by
  decide

/-- V8: idle with an unread entry, and all three bits. -/
theorem test_status_words :
    (holding 0 60).statusWord = 4 ∧
    ({ holding 0 60 with timerEnabled := true, outActive := true } : State).statusWord = 7 := by decide

/-- V8: right after `SEND 2, 0xABCD`. -/
theorem test_status_busy :
    (after (exec .status busy)).returned = some (.status 1) ∧
    (after (exec .status busy)).trace = [.statusv 1] := by decide

/-- V9: RESET with the line active. -/
theorem test_reset_active :
    let t := after (exec .reset { busy with outActive := true, pos := 3, remaining := 3, tail := 4 })
    (t.trace, t.statusWord, t.pos, t.remaining, t.tail) = ([.out false], 0, 0, 0, 0) := by decide

/-- V9: a faulted block has no RESET. -/
theorem test_reset_faulted :
    completes (step ({ base with fault := some ⟨.sendWhileBusy, 0⟩ }.withFetchWord 64
      0x0900000000000000)) = false := by decide

/-- P7: a refused word sets the mark and the run goes on. -/
theorem test_refused_word :
    let t := after (step (base.withFetchWord 64 0x0600000300000000))
    (t.refused, t.refusals, t.fault, t.schedule) = (true, [.sendLength], none, []) := by decide

/-- The first operation after reset runs (R63). -/
theorem test_fetch_from_reset :
    completes (step (State.reset.withFetchWord 64 0x060000020000ABCD)) = true ∧
    (after (step (State.reset.withFetchWord 64 0x060000020000ABCD))).timerEnabled = true := by decide

/-! ### Witnesses: concrete states and operands that meet each statement's hypotheses -/

theorem witness_EncodeOfDecoded : decode 0x0700000000000000 = .ok .tick := by decide

theorem witness_RefusalCasesInOrder :
    decode 0x00FFFFFFFFFFFFFF = .error .reservedOp ∧ decode 0x0AFFFFFFFFFFFFFF = .error .reservedOp ∧
    decode 0x0100010000000000 = .error .reservedField ∧
    decode 0x0900000000000001 = .error .reservedField ∧
    decode 0x06000001FFFFFFFF = .error .sendLength ∧ decode 0x06000003FFFFFFFF = .error .sendLength ∧
    decode 0x06000005FFFFFFFF = .error .sendLength ∧ decode 0x0100000000000000 = .ok (.edge 0) := by
  decide

theorem witness_SendLineAssembles :
    ((2 = 2 ∨ 2 = 4) ∧ 2 ^ 32 - 1 < 2 ^ 32) ∧ ((4 = 2 ∨ 4 = 4) ∧ 0 < 2 ^ 32) ∧
    ¬((3 = 2 ∨ 3 = 4) ∧ 0 < 2 ^ 32) ∧ ¬((2 = 2 ∨ 2 = 4) ∧ 2 ^ 32 < 2 ^ 32) := by decide

theorem witness_StepRunsDecodedOperation :
    let s : State := { base with schedule := [.issue 0x0100000000000005], draining := true }
    s.fault = none ∧ s.schedule = .issue 0x0100000000000005 :: [] ∧
    decode 0x0100000000000005 = .ok (.edge 5) ∧
    (s.draining = true → (Instr.edge 5).operation.agent ≠ .main) := by decide

theorem witness_RefusedWordSetsMark :
    let s : State := { base with schedule := [.issue 0x0600000300000000] }
    s.fault = none ∧ s.schedule = .issue 0x0600000300000000 :: [] ∧
    decode 0x0600000300000000 = .error .sendLength ∧
    (s.draining = true → wordAgent 0x0600000300000000 ≠ some .main) := by decide

theorem witness_FaultedBlockHasNoStep :
    ({ base with fault := some ⟨.rxCountWrap, 0⟩ } : State).fault ≠ none := by decide

theorem witness_DrainGoesOn :
    let s : State := { base with draining := true }
    (s.fault = none ∧ s.draining = true) ∧ s.schedule = [] ∧
    ({ s with schedule := [.resume] } : State).schedule = .resume :: [] ∧
    ({ s with schedule := [.issue 0x0200000000000000] } : State).schedule =
      .issue 0x0200000000000000 :: [] ∧ wordAgent 0x0200000000000000 = some .main := by decide

theorem witness_BlockHoldsStateBetweenOperations :
    base.fault = none ∧ base.SequenceUsedUp := ⟨by decide, by decide, by decide⟩

theorem witness_FaultedOrPendingRunIsNeverOver :
    let s : State := { base with timerEnabled := true, fault := some ⟨.sendWhileBusy, 0⟩ }
    let u : State := { holding 0 60 with timerEnabled := true, draining := true }
    (Host.Core.run Sys2Proof.core 0 s = .next s ∧ s.fault ≠ none) ∧
    u.schedule = [] ∧ u.timerEnabled = true ∧
    ∃ t, Host.Core.run Sys2Proof.core 2 u = .next t ∧ t.draining = false :=
  ⟨⟨rfl, by decide⟩, by decide, by decide, _, rfl, by decide⟩

/-- Program P6 of spec/95_test_vectors.md: "faulted and not final". -/
theorem test_faulted_run_not_over :
    ¬({ base with fault := some ⟨.sendWhileBusy, 0x0600000200000002⟩ } : State).RunOver :=
  fun h => absurd h.2.1 (by decide)

theorem witness_EnabledAgentsHaveSteps :
    let s : State := { base with schedule := [.issue (encode .tick)] }
    s.schedule = .issue (encode .tick) :: [] ∧ s.draining = false := by decide

theorem witness_FaultsAreRecorded :
    (∃ t, exec (.send4 1) busy = .next t ∧ t.fault ≠ busy.fault) ∧
    ∃ t, exec (.rxstep 11) (rx 18 0xFFFFFFFF 2 0 true) = .next t ∧
      t.fault ≠ (rx 18 0xFFFFFFFF 2 0 true).fault :=
  ⟨⟨_, rfl, by decide⟩, ⟨_, rfl, by decide⟩⟩

theorem witness_OutEventsAreLevelChanges : ∃ t, exec .tick busy = .next t ∧ t.outActive ≠ busy.outActive :=
  ⟨_, rfl, by decide⟩

theorem witness_StateHasItsWriters :
    ∃ t, exec .pop (holding 0 60) = .next t ∧ Instr.pop ≠ .reset ∧ t.tail ≠ (holding 0 60).tail :=
  ⟨_, rfl, by decide, by decide⟩

theorem witness_StepsKeepTheRecord :
    ∃ t, step (base.withFetchWord 64 0x0800000000000000) = .next t ∧ t.trace = [.statusv 0] :=
  ⟨_, rfl, by decide⟩

theorem witness_StepsKeepTheMark :
    base.MarkInv ∧ ∃ t, step (base.withFetchWord 64 0) = .next t ∧ t.refused = true :=
  ⟨by simp [State.MarkInv, base, State.powerOn], _, rfl, by decide⟩

/-- EDGE's acceptance at both ends of the window, in both modes (V2). -/
theorem witness_EdgeCapturesInterval :
    accept .quotient 1100 11 = true ∧ accept .quotient 1099 10 = false ∧
    accept .quotient 19999 199 = true ∧ accept .quotient 20000 200 = false ∧
    accept .microseconds 1001 10 = true ∧ accept .microseconds 1000 10 = false ∧
    accept .microseconds 19999 199 = true ∧ accept .microseconds 20000 200 = false := by decide

theorem witness_WrittenEntriesInRange :
    (∃ t, exec (.send2 0) base = .next t ∧ Instr.send2 0 ≠ .reset ∧
      entryAt t.seq 0 ≠ entryAt base.seq 0) ∧
    ∃ t, exec (.edge 1100) base = .next t ∧ Instr.edge 1100 ≠ .reset ∧
      entryAt t.ring 0 ≠ entryAt base.ring 0 :=
  ⟨⟨_, rfl, by decide, by decide⟩, ⟨_, rfl, by decide, by decide⟩⟩

theorem witness_PopTakesEntryAtTail :
    base.head = base.tail ∧ (holding 63 55).head ≠ (holding 63 55).tail := by decide

theorem witness_PushGoesBehindUnread :
    ({ base with head := 62 } : State).occupancy < 63 ∧
    ¬({ base with head := 63 } : State).occupancy < 63 := by decide

theorem witness_OverrunKeepsLastLap : 
    ({ base with head := 9, tail := 9 } : State).head =
      ({ base with head := 9, tail := 9 } : State).tail := by decide

theorem witness_UnreadSlotsAreUnobserved :
    ∃ t, exec .pop (holding 3 20) = .next t ∧
      (∀ k, k < (holding 3 20).occupancy →
        entryAt (withEntry (holding 3 20).ring 9 77) ((holding 3 20).tail + BitVec.ofNat 6 k) =
          entryAt (holding 3 20).ring ((holding 3 20).tail + BitVec.ofNat 6 k)) :=
  ⟨_, rfl, by decide⟩

theorem witness_StartMarkerResyncs :
    (50 < (51 : Interval).toNat ∧ (51 : Interval).toNat < 70) ∧
    (50 < (69 : Interval).toNat ∧ (69 : Interval).toNat < 70) := by decide

theorem witness_InBandIgnoredBeforeStart :
    (band (11 : Interval).toNat = .zero ∧ band (49 : Interval).toNat = .one ∧ base.bitsExpected = 0) ∧
    ∃ t, exec .pop base = .next t ∧ Instr.pop ≠ .reset ∧ t.bitsExpected = 0 :=
  ⟨by decide, _, rfl, by decide, by decide⟩

theorem witness_LengthBitSelectsFrame :
    ((rx 1 0 0 0 true).bitsExpected ≠ 0 ∧ (rx 1 0 0 0 true).bitsReceived = 0) ∧
    (10 < (11 : Interval).toNat ∧ (29 : Interval).toNat < 30) ∧
    (30 < (31 : Interval).toNat ∧ (49 : Interval).toNat < 50) := by decide

theorem witness_ChecksumBitValidates :
    let s := rx 34 33 4 0x12345678 false
    band (29 : Interval).toNat = (if false then .one else .zero) ∧ s.bitsExpected ≠ 0 ∧
    s.bitsReceived ≠ 0 ∧ s.bitsReceived = s.bitsExpected - 1 := by decide

theorem witness_DataBitAccumulates :
    let s := rx 18 1 2 0 true
    band (31 : Interval).toNat = (if true then .one else .zero) ∧ s.bitsExpected ≠ 0 ∧
    s.bitsReceived ≠ 0 ∧ s.bitsReceived ≠ s.bitsExpected - 1 ∧
    s.bitsReceived.toNat ≠ 2 ^ 32 - 1 := by decide

theorem witness_NoiseResetsPartially :
    (10 : Interval).toNat ≤ 10 ∧ (30 : Interval).toNat = 30 ∧ (50 : Interval).toNat = 50 ∧
    70 ≤ (70 : Interval).toNat := by decide

theorem witness_InBandIntervalsAreCounted :
    let s := rx 18 17 2 0 true
    (band (40 : Interval).toNat = .zero ∨ band (40 : Interval).toNat = .one) ∧ s.bitsExpected ≠ 0 ∧
    s.bitsReceived.toNat ≠ 2 ^ 32 - 1 := by decide

theorem witness_CounterWrapFaults :
    let s := rx 18 0xFFFFFFFF 2 0 true
    (band (20 : Interval).toNat = .zero ∨ band (20 : Interval).toNat = .one) ∧ s.bitsExpected ≠ 0 ∧
    s.bitsReceived.toNat = 2 ^ 32 - 1 := by decide

/-- POLL and DRAIN: an empty ring, an interval the receiver takes, and one at the counter's end. -/
theorem witness_PollFeedsReceiver :
    let s : State := { holding 0 20 with bitsExpected := 18, bitsReceived := 0xFFFFFFFF }
    base.head = base.tail ∧ (holding 0 60).head ≠ (holding 0 60).tail ∧
    (holding 0 60).bitsExpected = 0 ∧ s.head ≠ s.tail ∧ s.bitsExpected ≠ 0 ∧
    s.bitsReceived.toNat = 2 ^ 32 - 1 ∧
    band ((entryAt s.ring s.tail).zeroExtend 32).toNat = .zero := by decide

theorem witness_DrainIteratesPoll :
    let s : State := { holding 63 49 with bitsExpected := 34, bitsReceived := 0xFFFFFFFF }
    base.head = base.tail ∧ (holding 63 60).head ≠ (holding 63 60).tail ∧
    (holding 63 60).bitsExpected = 0 ∧ s.head ≠ s.tail ∧ s.bitsExpected ≠ 0 ∧
    s.bitsReceived.toNat = 2 ^ 32 - 1 ∧
    band ((entryAt s.ring s.tail).zeroExtend 32).toNat = .one := by decide

theorem witness_DrainEmptiesRing :
    let s : State := { holding 0 60 with schedule := [.issue (encode .drain)] }
    s.fault = none ∧ s.schedule = [.issue (encode .drain)] ∧ s.draining = false ∧
    s.bitsReceived.toNat + s.occupancy < 2 ^ 32 := by decide

theorem witness_FrameAcceptance :
    (0xABCD : BitVec 32).toNat < 2 ^ dataBits .two ∧ band (60 : Interval).toNat = .start ∧
    band (20 : Interval).toNat = (if lengthBitOf .two then .one else .zero) ∧
    ([40, 20, 40, 20, 40, 20, 40, 40, 40, 40, 20, 20, 40, 40, 20, 40] : List Interval).map
        (fun v => band v.toNat) =
      (List.range (dataBits .two)).map
        (fun j => if (0xABCD : BitVec 32).getLsbD (dataBits .two - 1 - j) then Band.one else Band.zero) ∧
    band (40 : Interval).toNat = (if true then .one else .zero) := by decide

theorem witness_ParityCarriesOverNoise :
    (rx 18 3 2 2 false).bitsExpected ≠ 0 ∧ (1 : BitVec 32).toNat < 2 ^ dataBits .two ∧
    band (200 : Interval).toNat = .other ∧
    band (20 : Interval).toNat = (if lengthBitOf .two then .one else .zero) ∧
    ([20, 20, 20, 20, 20, 20, 20, 20, 20, 20, 20, 20, 20, 20, 20, 40] : List Interval).map
        (fun v => band v.toNat) =
      (List.range (dataBits .two)).map
        (fun j => if (1 : BitVec 32).getLsbD (dataBits .two - 1 - j) then Band.one else Band.zero) ∧
    band (20 : Interval).toNat = (if false then .one else .zero) := by decide

/-- The receiver invariants hold in the middle of a frame. -/
theorem midframe_receiverInv : (rx 18 3 2 2 false).ReceiverInv where
  expected := by decide
  unstarted := by decide
  length := fun _ => ⟨.two, by decide⟩
  cleared := by decide
  bounded := by decide

theorem witness_StepsKeepReceiverInvariant :
    (rx 18 3 2 2 false).ReceiverInv ∧ ∃ t, step (rx 18 3 2 2 false) = .next t :=
  ⟨midframe_receiverInv, _, rfl⟩

theorem witness_StepsKeepFramesInRange :
    (rx 18 3 2 2 false).ReceiverInv ∧
    State.FramesInRange { rx 18 3 2 2 false with trace := [.frame 2 0xFFFF] } ∧
    ∃ t, step { rx 18 3 2 2 false with trace := [.frame 2 0xFFFF] } = .next t :=
  ⟨midframe_receiverInv, by intro e he; simp only [List.mem_singleton] at he; subst he; exact .inl (by decide),
    _, rfl⟩

theorem witness_AssembledFrameIsReceived :
    ((2 = 2 ∨ 2 = 4) ∧ 0x12345 < 2 ^ 32) ∧ ((4 = 2 ∨ 4 = 4) ∧ 2 ^ 32 - 1 < 2 ^ 32) := by decide

/-- An idle block, for SEND and its laws. -/
theorem witness_SendWritesSequence : base.timerEnabled = false := by decide

theorem witness_SendWhileBusyFaults : busy.timerEnabled = true := by decide

theorem witness_HighValueBitsAreNotSent :
    base.timerEnabled = false ∧
    (0x12345 : BitVec 32).toNat % 2 ^ 16 = (0x2345 : BitVec 32).toNat % 2 ^ 16 := by decide

/-- TICK: a count of 2, a count of 1 before an entry, and a count of 1 before the sentinel. -/
theorem witness_TickPlaysSequence :
    busy.timerEnabled = true ∧ 1 < ({ busy with remaining := 2 } : State).remaining.toNat ∧
    (busy.remaining.toNat ≤ 1 ∧ entryAt busy.seq busy.pos ≠ 0) ∧
    (({ busy with remaining := 1, pos := 19 } : State).remaining.toNat ≤ 1 ∧
      entryAt busy.seq 19 = 0) := by decide

theorem witness_StoppedTimerHasNoTick : base.timerEnabled = false := by decide

theorem witness_StepsKeepIdleInvariant :
    base.IdleInv ∧ ∃ t, step (base.withFetchWord 64 0x0600000200000000) = .next t :=
  ⟨fun _ => by decide, _, rfl⟩

theorem witness_StepsKeepTransmitInvariant :
    base.TransmitInv ∧ ∃ t, step (base.withFetchWord 64 0x0600000200000000) = .next t :=
  ⟨⟨fun _ => by decide, fun h => absurd h (by decide)⟩, _, rfl⟩

theorem witness_PlaybackIsNotOverwritten :
    ∃ t, exec .tick busy = .next t ∧ Instr.tick ≠ .reset ∧ busy.timerEnabled = true :=
  ⟨_, rfl, by decide, by decide⟩

theorem witness_TransmissionEdgeTiming :
    (base.IdleInv ∧ base.timerEnabled = false) ∧
    (dataBits .four + 2 < dataBits .four + 3 ∧
      1 < (playbackEntry .four 0x12345678 (dataBits .four + 2)).toNat) :=
  ⟨⟨fun _ => by decide, by decide⟩, by decide⟩

theorem witness_TransmissionDuration : base.IdleInv ∧ base.timerEnabled = false :=
  ⟨fun _ => by decide, by decide⟩

theorem witness_LoopbackRoundTrip :
    TickPeriodInRange base.params ∧ base.head = base.tail ∧
    20000 ≤ (BitVec.ofNat 32 (0x10000000 + base.params.tTick) - base.prevTs).toNat :=
  ⟨⟨by decide, by decide⟩, by decide, by decide⟩

theorem witness_StatusHidesOtherState :
    let u : State := { base with prevTs := 9, seq := busy.seq, head := 5, tail := 5 }
    base.timerEnabled = u.timerEnabled ∧ base.outActive = u.outActive ∧
    (base.head = base.tail ↔ u.head = u.tail) ∧ ∃ t, exec .status base = .next t :=
  ⟨by decide, by decide, by decide, _, rfl⟩

end Sys2Proof.Tests
end

/-!
### The output line and the trace (spec/00_scope.md R12, decision D23)

The trace an operation appends to, and its OUT events against the line's level. `OutFollowsLevel` is the
relation that O15 states of `exec`; one lemma per operation gives it, from what that operation can do.
-/

namespace Sys2Proof.Machine

/-- From `s` to `t` the trace grew by events whose OUTs tell exactly the change of the line's level (R12). -/
def OutFollowsLevel (s t : State) : Prop :=
  ∃ es, t.trace = s.trace ++ es ∧
    outEvents es = if t.outActive = s.outActive then [] else [.out t.outActive]

section

variable {s t : State}

theorem outFollowsLevel_of_kept {es : List Event} (hlevel : t.outActive = s.outActive)
    (htrace : t.trace = s.trace ++ es) (hes : outEvents es = []) : OutFollowsLevel s t :=
  ⟨es, htrace, by rw [if_pos hlevel, hes]⟩

/-- An operation that leaves the line and the trace alone. -/
theorem outFollowsLevel_of_silent (hlevel : t.outActive = s.outActive) (htrace : t.trace = s.trace) :
    OutFollowsLevel s t :=
  outFollowsLevel_of_kept (es := []) hlevel (by rw [htrace, List.append_nil]) rfl

/-- An operation that does to the line and the trace what `State.drive` does (R43, decision D23). -/
theorem outFollowsLevel_of_driven {l : Bool} (hlevel : t.outActive = (s.drive l).outActive)
    (htrace : t.trace = (s.drive l).trace) : OutFollowsLevel s t := by
  rw [drive_outActive] at hlevel
  rw [drive_trace] at htrace
  refine ⟨_, htrace, ?_⟩
  rw [hlevel]
  by_cases h : s.outActive = l
  · rw [if_pos h, if_pos h.symm]; rfl
  · rw [if_neg h, if_neg (Ne.symm h)]; rfl

/-- The receiver appends nothing to the trace, or one FRAME (R165, R171). -/
theorem receive_trace {v : Interval} (h : s.receive v = .ok t) :
    t.trace = s.trace ∨ t.trace = s.trace ++ [.frame s.dataLength s.data] := by
  obtain ⟨-, e⟩ | ⟨-, e⟩ | ⟨b, -, e⟩ := receive_cases v s
  · rw [e] at h; cases h; exact .inl rfl
  · rw [e] at h; cases h; exact .inl rfl
  · rw [e] at h
    obtain ⟨-, e⟩ | ⟨-, -, e⟩ | ⟨-, -, e⟩ | ⟨-, -, -, -, e⟩ | ⟨-, -, -, -, e⟩ := bandBit_cases b s <;>
      rw [e] at h <;> cases h
    · exact .inl rfl
    · exact .inl rfl
    · rw [countBit_trace]
      unfold State.checkBit
      split
      · exact .inr rfl
      · exact .inl rfl
    · exact .inl rfl

theorem receive_outFollowsLevel {v : Interval} (h : s.receive v = .ok t) : OutFollowsLevel s t := by
  have hlevel : t.outActive = s.outActive := by rw [receive_frame h]
  obtain htrace | htrace := receive_trace h
  · exact outFollowsLevel_of_silent hlevel htrace
  · exact outFollowsLevel_of_kept hlevel htrace rfl

theorem execEdge_outFollowsLevel {ts : Timestamp} (h : execEdge ts s = .next t) :
    OutFollowsLevel s t := by
  unfold execEdge at h
  cases h
  split
  · exact outFollowsLevel_of_silent rfl rfl
  · exact outFollowsLevel_of_silent rfl rfl

theorem execPop_outFollowsLevel (h : execPop s = .next t) : OutFollowsLevel s t := by
  unfold execPop at h
  obtain ⟨-, e⟩ | ⟨-, e⟩ := pop_cases s
  · rw [e] at h; cases h
    exact outFollowsLevel_of_kept (es := [.popped none]) rfl rfl rfl
  · rw [e] at h; cases h
    exact outFollowsLevel_of_kept (es := [.popped (some _)]) rfl rfl rfl

theorem execRxstep_outFollowsLevel {v : Interval} (h : execRxstep v s = .next t) :
    OutFollowsLevel s t := by
  unfold execRxstep at h
  cases e : s.receive v with
  | ok u => rw [e] at h; cases h; exact receive_outFollowsLevel e
  | error c => rw [e] at h; cases h; exact outFollowsLevel_of_silent rfl rfl

/-- POLL and DRAIN run the receiver between a pop and an update that touch neither the line nor the trace
(R169, R170). -/
theorem outFollowsLevel_of_polled {v : Interval} {u : State} (h : s.advanceTail.receive v = .ok u)
    (hlevel : t.outActive = u.outActive) (htrace : t.trace = u.trace) : OutFollowsLevel s t := by
  obtain ⟨es, hes, hout⟩ := receive_outFollowsLevel h
  exact ⟨es, htrace.trans hes, by rw [hout, hlevel]; rfl⟩

theorem execPoll_outFollowsLevel (h : execPoll s = .next t) : OutFollowsLevel s t := by
  unfold execPoll at h
  obtain ⟨-, e⟩ | ⟨v, u, -, -, hr, e⟩ | ⟨v, c, -, -, -, e⟩ := poll_cases s <;> rw [e] at h <;> cases h
  · exact outFollowsLevel_of_silent rfl rfl
  · exact outFollowsLevel_of_polled hr rfl rfl
  · exact outFollowsLevel_of_silent rfl rfl

theorem execDrain_outFollowsLevel (h : execDrain s = .next t) : OutFollowsLevel s t := by
  unfold execDrain at h
  obtain ⟨-, e⟩ | ⟨v, u, -, -, hr, e⟩ | ⟨v, c, -, -, -, e⟩ := poll_cases s <;> rw [e] at h <;> cases h
  · exact outFollowsLevel_of_silent rfl rfl
  · exact outFollowsLevel_of_polled hr rfl rfl
  · exact outFollowsLevel_of_silent rfl rfl

theorem send_outFollowsLevel (c : PayloadClass) (value : BitVec 32) (w : OpWord) (s : State) :
    OutFollowsLevel s (s.send c value w) := by
  obtain ⟨-, e⟩ | ⟨-, e⟩ := send_cases c value w s
  · rw [e]; exact outFollowsLevel_of_silent (raise_outActive ..) (raise_trace ..)
  · exact outFollowsLevel_of_silent (by rw [e]) (by rw [e])

/-- A tick counts down in silence, toggles the line, or drives it inactive (R203). -/
theorem playTick_outFollowsLevel (s : State) : OutFollowsLevel s s.playTick := by
  obtain ⟨-, e⟩ | ⟨-, -, e⟩ | ⟨-, -, e⟩ := playTick_cases s
  · exact outFollowsLevel_of_silent (by rw [e]) (by rw [e])
  · exact outFollowsLevel_of_driven (l := !s.outActive) (by simp [e]) (by simp [e, drive_trace])
  · exact outFollowsLevel_of_driven (l := false) (by simp [e])
      (by cases h : s.outActive <;> simp [e, drive_trace, h])

theorem execTick_outFollowsLevel (h : execTick s = .next t) : OutFollowsLevel s t := by
  unfold execTick at h
  split at h
  · cases h; exact playTick_outFollowsLevel s
  · cases h

theorem execStatus_outFollowsLevel (h : execStatus s = .next t) : OutFollowsLevel s t := by
  cases h
  exact outFollowsLevel_of_kept (es := [.statusv s.statusWord]) rfl rfl rfl

/-- RESET's line change is `State.drive` to inactive; the registers it writes after that are no events
(R241). -/
theorem execReset_outFollowsLevel (h : execReset s = .next t) : OutFollowsLevel s t := by
  cases h
  exact outFollowsLevel_of_driven (l := false) (drive_outActive ..).symm rfl

end

/-- Settles O15, operation by operation: only TICK and RESET move the line, and both move it as
`State.drive` does. -/
theorem outEventsAreLevelChanges : Obligations.OutEventsAreLevelChanges := by
  intro i s t h
  cases i with
  | edge ts => exact execEdge_outFollowsLevel h
  | pop => exact execPop_outFollowsLevel h
  | rxstep v => exact execRxstep_outFollowsLevel h
  | poll => exact execPoll_outFollowsLevel h
  | drain => exact execDrain_outFollowsLevel h
  | send2 value => cases h; exact send_outFollowsLevel .two value _ s
  | send4 value => cases h; exact send_outFollowsLevel .four value _ s
  | tick => exact execTick_outFollowsLevel h
  | status => exact execStatus_outFollowsLevel h
  | reset => exact execReset_outFollowsLevel h

end Sys2Proof.Machine

/-!
### What an operation can write (spec/10_state.md R53)

One frame per operation: the next state is the old one but for the fields the equation names.
-/

namespace Sys2Proof.Machine

section

variable {s t : State}

theorem execEdge_frame {ts : Timestamp} (h : execEdge ts s = .next t) :
    t = { s with prevTs := t.prevTs, ring := t.ring, head := t.head } := by
  unfold execEdge at h
  cases h
  split <;> rfl

theorem execPop_frame (h : execPop s = .next t) :
    t = { s with tail := t.tail, trace := t.trace, returned := t.returned } := by
  unfold execPop at h
  obtain ⟨-, e⟩ | ⟨-, e⟩ := pop_cases s <;> rw [e] at h <;> cases h <;> rfl

theorem execRxstep_frame {v : Interval} (h : execRxstep v s = .next t) :
    t = { s with bitsExpected := t.bitsExpected, bitsReceived := t.bitsReceived,
                 dataLength := t.dataLength, data := t.data, checksum := t.checksum,
                 trace := t.trace, fault := t.fault } := by
  unfold execRxstep at h
  cases e : s.receive v with
  | ok u => rw [e] at h; cases h; rw [receive_frame e]
  | error c => rw [e] at h; cases h; rfl

/-- POLL advances `tail` as a pop does, and writes what the receiver writes (R169). -/
theorem execPoll_frame (h : execPoll s = .next t) :
    t = { s with tail := t.tail, bitsExpected := t.bitsExpected, bitsReceived := t.bitsReceived,
                 dataLength := t.dataLength, data := t.data, checksum := t.checksum,
                 trace := t.trace, fault := t.fault, returned := t.returned } := by
  unfold execPoll at h
  obtain ⟨-, e⟩ | ⟨v, u, -, -, hr, e⟩ | ⟨v, c, -, -, -, e⟩ := poll_cases s <;> rw [e] at h <;> cases h
  · rfl
  · rw [receive_frame hr]; rfl
  · rfl

theorem execDrain_frame (h : execDrain s = .next t) :
    t = { s with tail := t.tail, bitsExpected := t.bitsExpected, bitsReceived := t.bitsReceived,
                 dataLength := t.dataLength, data := t.data, checksum := t.checksum,
                 trace := t.trace, fault := t.fault, draining := t.draining } := by
  unfold execDrain at h
  obtain ⟨-, e⟩ | ⟨v, u, -, -, hr, e⟩ | ⟨v, c, -, -, -, e⟩ := poll_cases s <;> rw [e] at h <;> cases h
  · rfl
  · rw [receive_frame hr]; rfl
  · rfl

/-- SEND writes `seq` and enables the timer, or records its fault; it never disables the timer (R200). -/
theorem send_frame {c : PayloadClass} {value : BitVec 32} {w : OpWord}
    (h : (.next (s.send c value w) : Host.Outcome State Fault Refusal) = .next t) :
    t = { s with seq := t.seq, timerEnabled := true, fault := t.fault } := by
  cases h
  obtain ⟨hon, e⟩ | ⟨-, e⟩ := send_cases c value w s
  · rw [e, ← hon]; rfl
  · rw [e]

/-- TICK writes the player's registers, and the timer's enable bit only to clear it (R203, R204). -/
theorem execTick_frame (h : execTick s = .next t) :
    t = { s with pos := t.pos, remaining := t.remaining, outActive := t.outActive,
                 timerEnabled := t.timerEnabled, trace := t.trace } := by
  unfold execTick at h
  split at h
  · cases h
    obtain ⟨-, e⟩ | ⟨-, -, e⟩ | ⟨-, -, e⟩ := playTick_cases s <;> rw [e]
  · cases h

theorem execStatus_frame (h : execStatus s = .next t) :
    t = { s with trace := t.trace, returned := t.returned } := by
  cases h; rfl

/-- RESET, all but the values drawn (R241). -/
theorem execReset_frame (h : execReset s = .next t) :
    t = { s with prevTs := t.prevTs, ring := t.ring, head := 0, tail := 0, bitsExpected := 0,
                 bitsReceived := 0, dataLength := 0, data := 0, checksum := false, seq := t.seq,
                 pos := 0, remaining := 0, outActive := false, timerEnabled := false,
                 trace := t.trace, draws := t.draws } := by
  cases h
  rw [drive_eq]
  rfl

end

end Sys2Proof.Machine

/-!
### Writers, recorded outcomes and the idle block (spec/10_state.md R46, R50 to R53)
-/

namespace Sys2Proof.Machine

section

variable {s t : State}

/-- TICK has a next state only while the timer is enabled (R204). -/
theorem timerEnabled_of_execTick (h : execTick s = .next t) : s.timerEnabled = true := by
  unfold execTick at h
  split at h
  · assumption
  · cases h

/-- No operation writes the parameters, the mark `refused` or the refusals; only a refused word's step
writes the last two (R46, R278). -/
theorem exec_keeps_marks {i : Instr} (h : exec i s = .next t) :
    t.params = s.params ∧ t.refused = s.refused ∧ t.refusals = s.refusals := by
  cases i with
  | edge ts => rw [execEdge_frame h]; exact ⟨rfl, rfl, rfl⟩
  | pop => rw [execPop_frame h]; exact ⟨rfl, rfl, rfl⟩
  | rxstep v => rw [execRxstep_frame h]; exact ⟨rfl, rfl, rfl⟩
  | poll => rw [execPoll_frame h]; exact ⟨rfl, rfl, rfl⟩
  | drain => rw [execDrain_frame h]; exact ⟨rfl, rfl, rfl⟩
  | send2 value => rw [send_frame h]; exact ⟨rfl, rfl, rfl⟩
  | send4 value => rw [send_frame h]; exact ⟨rfl, rfl, rfl⟩
  | tick => rw [execTick_frame h]; exact ⟨rfl, rfl, rfl⟩
  | status => rw [execStatus_frame h]; exact ⟨rfl, rfl, rfl⟩
  | reset => rw [execReset_frame h]; exact ⟨rfl, rfl, rfl⟩

/-- What a step keeps of the record of the run: the parameters, and everything recorded so far. -/
def RecordKept (s t : State) : Prop :=
  t.params = s.params ∧ s.trace <+: t.trace ∧ s.refusals <+: t.refusals ∧
    (s.refused = true → t.refused = true)

end

/-- Settles O16, by the frame of each operation. -/
theorem stateHasItsWriters : Obligations.StateHasItsWriters := by
  intro i s t h hreset
  cases i with
  | edge ts => rw [execEdge_frame h]; simp [Instr.operation]
  | pop => rw [execPop_frame h]; simp [Instr.operation]
  | rxstep v => rw [execRxstep_frame h]; simp [Instr.operation]
  | poll => rw [execPoll_frame h]; simp [Instr.operation]
  | drain => rw [execDrain_frame h]; simp [Instr.operation]
  | send2 value => rw [send_frame h]; simp [Instr.operation]
  | send4 value => rw [send_frame h]; simp [Instr.operation]
  | tick =>
    have hon := timerEnabled_of_execTick h
    rw [execTick_frame h]; simp [Instr.operation, hon]
  | status => rw [execStatus_frame h]; simp
  | reset => exact absurd rfl hreset

/-- Settles O17: an operation appends to the trace and leaves the marks alone; a refused word only adds
to them. -/
theorem stepsKeepTheRecord : Obligations.StepsKeepTheRecord := by
  intro s t h
  refine step_keeps (P := RecordKept s) (fun _ _ hp => hp) ?_ ?_
    ⟨rfl, List.prefix_rfl, List.prefix_rfl, id⟩ h
  · rintro u c ⟨hparams, htrace, hrefusals, -⟩
    exact ⟨hparams, htrace, hrefusals.trans (List.prefix_append ..), fun _ => rfl⟩
  · rintro i u v ⟨hparams, htrace, hrefusals, hrefused⟩ hexec
    obtain ⟨es, hes, -⟩ := outEventsAreLevelChanges i u v hexec
    obtain ⟨hp, hr, hrs⟩ := exec_keeps_marks hexec
    exact ⟨hp.trans hparams, htrace.trans ⟨es, hes.symm⟩, hrs ▸ hrefusals, hr ▸ hrefused⟩

/-- Settles O18: a refused word sets the mark and records its code; nothing else writes either. -/
theorem stepsKeepTheMark : Obligations.StepsKeepTheMark := by
  intro s t hmark h
  refine step_keeps (P := State.MarkInv) (fun _ _ hp => hp) ?_ ?_ hmark h
  · intro u c _
    simp [State.MarkInv]
  · intro i u v hu hexec
    obtain ⟨-, hr, hrs⟩ := exec_keeps_marks hexec
    rw [State.MarkInv, hr, hrs]
    exact hu

/-- A tick keeps the idle invariant: it leaves the timer enabled, or stops it with the player cleared
(R203). -/
theorem idleInv_execTick {s t : State} (h : execTick s = .next t) : t.IdleInv := by
  have hon := timerEnabled_of_execTick h
  rw [execTick, if_pos hon] at h
  cases h
  intro hoff
  obtain ⟨-, e⟩ | ⟨-, -, e⟩ | ⟨-, -, e⟩ := playTick_cases s
  · rw [e] at hoff; exact absurd (hon.symm.trans hoff) (by decide)
  · rw [e] at hoff; exact absurd (hon.symm.trans hoff) (by decide)
  · rw [e]; exact ⟨rfl, rfl, rfl⟩

/-- Operations keep the idle invariant: TICK and RESET establish it, and no other operation writes the
player's registers or disables the timer (R51, R53). -/
theorem exec_keeps_idleInv {i : Instr} {s t : State} (hs : s.IdleInv) (h : exec i s = .next t) :
    t.IdleInv := by
  by_cases hreset : i = .reset
  · subst hreset
    rw [execReset_frame h]
    exact fun _ => ⟨rfl, rfl, rfl⟩
  by_cases htick : i.operation = .tick
  · cases i <;> cases htick
    exact idleInv_execTick h
  obtain ⟨-, -, -, -, hplayer, htimer⟩ := stateHasItsWriters i s t h hreset
  have hkept : t.pos = s.pos ∧ t.remaining = s.remaining ∧ t.outActive = s.outActive := by
    simpa only [not_or, not_not] using mt hplayer htick
  intro hoff
  have hoff' : s.timerEnabled = false := by
    by_contra hne
    obtain ⟨-, hon⟩ | ⟨ht, -⟩ := htimer (by rw [hoff]; exact Ne.symm hne)
    · exact absurd (hon.symm.trans hoff) (by decide)
    · exact htick ht
  obtain ⟨hpos, hrem, hout⟩ := hkept
  rw [hpos, hrem, hout]
  exact hs hoff'

/-- Settles O48: the idle invariant reads neither the schedule nor the refusals, and every operation
keeps it. -/
theorem stepsKeepIdleInvariant : Obligations.StepsKeepIdleInvariant := fun _ _ hs h =>
  step_keeps (P := State.IdleInv) (fun _ _ hp => hp) (fun _ _ hp => hp)
    (fun _ _ _ hp hexec => exec_keeps_idleInv hp hexec) hs h

/-- The status word reads three facts of the state (R240). -/
theorem statusWord_congr {s u : State} (htimer : s.timerEnabled = u.timerEnabled)
    (hout : s.outActive = u.outActive) (hring : s.head = s.tail ↔ u.head = u.tail) :
    s.statusWord = u.statusWord := by
  have hpending : s.rxPending = u.rxPending := by
    rw [Bool.eq_iff_iff]; simp [State.rxPending, hring]
  rw [State.statusWord, State.statusWord, htimer, hout, hpending]

/-- Settles O56: the returned value is the status word, which `statusWord_congr` says is the same. -/
theorem statusHidesOtherState : Obligations.StatusHidesOtherState := by
  intro s u t htimer hout hring h
  cases h
  refine ⟨_, rfl, ?_⟩
  rw [giveBack_returned, giveBack_returned, statusWord_congr htimer hout hring]

/-- Settles O9: with a fault recorded the next turn is `stopped`, whatever is scheduled. -/
theorem faultedBlockHasNoStep : Obligations.FaultedBlockHasNoStep := by
  intro s hf
  obtain ⟨-, e⟩ | ⟨hclean, -⟩ | ⟨hclean, -⟩ | ⟨hclean, -⟩ := nextTurn_cases s
  · rw [step, e]
  all_goals exact absurd hclean hf

/-- Settles O58, register by register, from the table `State.powerOn` is. -/
theorem powerOnState : Obligations.PowerOnState :=
  ⟨rfl, rfl, rfl, rfl, rfl, rfl, rfl, rfl, rfl, rfl, rfl, rfl, rfl, rfl⟩

end Sys2Proof.Machine

/-!
### The receiver invariants (spec/10_state.md R54, spec/41_receiver.md R174)

Each branch of the receiver keeps `State.ReceiverInv`; only RXSTEP, POLL and DRAIN run the receiver, and
besides them only RESET writes its registers.
-/

namespace Sys2Proof.Machine

section

variable {s t : State}

@[simp] theorem checkBit_bitsExpected (b : Bool) : (s.checkBit b).bitsExpected = s.bitsExpected := by
  unfold State.checkBit; split <;> rfl
@[simp] theorem checkBit_bitsReceived (b : Bool) : (s.checkBit b).bitsReceived = s.bitsReceived := by
  unfold State.checkBit; split <;> rfl
@[simp] theorem checkBit_dataLength (b : Bool) : (s.checkBit b).dataLength = s.dataLength := by
  unfold State.checkBit; split <;> rfl
@[simp] theorem checkBit_data (b : Bool) : (s.checkBit b).data = s.data := by
  unfold State.checkBit; split <;> rfl

/-- The invariants read four registers only. -/
theorem receiverInv_of_eq (hs : s.ReceiverInv) (hexp : t.bitsExpected = s.bitsExpected)
    (hrec : t.bitsReceived = s.bitsReceived) (hlen : t.dataLength = s.dataLength)
    (hdata : t.data = s.data) : t.ReceiverInv := by
  obtain ⟨h1, h2, h3, h4, h5⟩ := hs
  constructor <;> simpa only [hexp, hrec, hlen, hdata]

/-- With nothing received only `bits_expected` is constrained. -/
theorem receiverInv_of_unreceived (hexp : t.bitsExpected ∈ [0, 1, 18, 34]) (hrec : t.bitsReceived = 0)
    (hdata : t.data = 0) : t.ReceiverInv where
  expected := hexp
  unstarted _ := ⟨hrec, hdata⟩
  length h := absurd hrec h
  cleared _ := hdata
  bounded h := absurd hrec h

/-- The length bit is the frame's first: it sets the frame's length, with `data` still clear (R164). -/
theorem receiverInv_lengthBit (hs : s.ReceiverInv) (hrec : s.bitsReceived = 0) (b : Bool) :
    (s.lengthBit b).countBit.ReceiverInv where
  expected := by cases b <;> simp [classOfBit, frameBits]
  unstarted h := by cases b <;> simp [classOfBit, frameBits] at h
  length _ := ⟨classOfBit b, rfl, rfl⟩
  cleared _ := hs.cleared hrec
  bounded _ := by simp [hrec, hs.cleared hrec]

/-- A count of one more bit with `data` below the next power of two (R165, R166, R168). -/
theorem receiverInv_of_counted (hs : s.ReceiverInv) (hrec : s.bitsReceived ≠ 0)
    (hwrap : s.bitsReceived ≠ 0xFFFFFFFF) (hexp : t.bitsExpected = s.bitsExpected)
    (hcount : t.bitsReceived = s.bitsReceived + 1) (hlen : t.dataLength = s.dataLength)
    (hdata : t.data.toNat < 2 ^ s.bitsReceived.toNat) : t.ReceiverInv := by
  have hnat : t.bitsReceived.toNat = s.bitsReceived.toNat + 1 := by rw [hcount]; bv_omega
  have hpos : t.bitsReceived ≠ 0 := by rw [hcount]; bv_omega
  exact {
    expected := hexp ▸ hs.expected
    unstarted := fun h => absurd (hs.unstarted (hexp ▸ h)).1 hrec
    length := fun _ => by rw [hexp, hlen]; exact hs.length hrec
    cleared := fun h => absurd h hpos
    bounded := fun _ => by rw [hnat, Nat.add_sub_cancel]; exact hdata }

/-- Shifting in a bit at most doubles the bound on `data`. -/
theorem shiftIn_lt {d : BitVec 32} {n : Nat} (b : Bool) (h : d.toNat < 2 ^ n) :
    ((d <<< 1) ||| (if b then 1 else 0)).toNat < 2 ^ (n + 1) := by
  have hshift : (d <<< 1).toNat < 2 ^ (n + 1) := by
    rw [BitVec.toNat_shiftLeft, Nat.shiftLeft_eq, pow_succ]
    exact (Nat.mod_le _ _).trans_lt (by omega)
  have hbit : (if b then 1 else 0 : BitVec 32).toNat < 2 ^ (n + 1) := by
    cases b <;> simp
  rw [BitVec.toNat_or]
  exact Nat.or_lt_two_pow hshift hbit

theorem bandBit_receiverInv (hs : s.ReceiverInv) {b : Bool} (h : s.bandBit b = .ok t) :
    t.ReceiverInv := by
  have hbound (hrec : s.bitsReceived ≠ 0) :
      s.data.toNat < 2 ^ (s.bitsReceived.toNat - 1) ∧ s.bitsReceived.toNat - 1 + 1 = s.bitsReceived.toNat :=
    ⟨hs.bounded hrec, by bv_omega⟩
  obtain ⟨-, e⟩ | ⟨-, -, e⟩ | ⟨-, hrec, e⟩ | ⟨-, hrec, hwrap, -, e⟩ | ⟨-, hrec, hwrap, -, e⟩ :=
    bandBit_cases b s <;> rw [e] at h <;> cases h
  · exact hs
  · exact receiverInv_lengthBit hs hrec b
  · obtain ⟨hlt, -⟩ := hbound hrec
    refine receiverInv_of_counted hs hrec hwrap (by simp) (by simp) (by simp) ?_
    rw [countBit_data, checkBit_data]
    exact hlt.trans_le (Nat.pow_le_pow_right (by decide) (Nat.sub_le ..))
  · obtain ⟨hlt, heq⟩ := hbound hrec
    refine receiverInv_of_counted hs hrec hwrap rfl rfl rfl ?_
    rw [countBit_data, dataBit_data, ← heq]
    exact shiftIn_lt b hlt

/-- The receiver keeps its invariants on every interval (R54). -/
theorem receive_receiverInv (hs : s.ReceiverInv) {v : Interval} (h : s.receive v = .ok t) :
    t.ReceiverInv := by
  obtain ⟨-, e⟩ | ⟨-, e⟩ | ⟨b, -, e⟩ := receive_cases v s <;> rw [e] at h
  · cases h; exact receiverInv_of_unreceived (by simp) rfl rfl
  · cases h; exact receiverInv_of_unreceived hs.expected rfl rfl
  · exact bandBit_receiverInv hs h

theorem execRxstep_receiverInv (hs : s.ReceiverInv) {v : Interval} (h : execRxstep v s = .next t) :
    t.ReceiverInv := by
  unfold execRxstep at h
  cases e : s.receive v with
  | ok u => rw [e] at h; cases h; exact receive_receiverInv hs e
  | error c => rw [e] at h; cases h; exact receiverInv_of_eq hs rfl rfl rfl rfl

theorem advanceTail_receiverInv (hs : s.ReceiverInv) : s.advanceTail.ReceiverInv :=
  receiverInv_of_eq hs rfl rfl rfl rfl

theorem execPoll_receiverInv (hs : s.ReceiverInv) (h : execPoll s = .next t) : t.ReceiverInv := by
  unfold execPoll at h
  obtain ⟨-, e⟩ | ⟨v, u, -, -, hr, e⟩ | ⟨v, c, -, -, -, e⟩ := poll_cases s <;> rw [e] at h <;> cases h
  · exact receiverInv_of_eq hs rfl rfl rfl rfl
  · exact receiverInv_of_eq (receive_receiverInv (advanceTail_receiverInv hs) hr) rfl rfl rfl rfl
  · exact receiverInv_of_eq hs rfl rfl rfl rfl

theorem execDrain_receiverInv (hs : s.ReceiverInv) (h : execDrain s = .next t) : t.ReceiverInv := by
  unfold execDrain at h
  obtain ⟨-, e⟩ | ⟨v, u, -, -, hr, e⟩ | ⟨v, c, -, -, -, e⟩ := poll_cases s <;> rw [e] at h <;> cases h
  · exact receiverInv_of_eq hs rfl rfl rfl rfl
  · exact receiverInv_of_eq (receive_receiverInv (advanceTail_receiverInv hs) hr) rfl rfl rfl rfl
  · exact receiverInv_of_eq hs rfl rfl rfl rfl

/-- An operation that does not write the receiver's registers keeps their invariants (R53). -/
theorem receiverInv_of_not_writer {i : Instr} (hs : s.ReceiverInv) (h : exec i s = .next t)
    (hreset : i ≠ .reset)
    (hwriter : ¬(i.operation = .rxstep ∨ i.operation = .poll ∨ i.operation = .drain)) :
    t.ReceiverInv := by
  obtain ⟨-, -, hreceiver, -⟩ := stateHasItsWriters i s t h hreset
  have hkept := mt hreceiver hwriter
  simp only [not_or, not_not] at hkept
  obtain ⟨hexp, hrec, hlen, hdata, -⟩ := hkept
  exact receiverInv_of_eq hs hexp hrec hlen hdata

theorem exec_keeps_receiverInv {i : Instr} (hs : s.ReceiverInv) (h : exec i s = .next t) :
    t.ReceiverInv := by
  cases i with
  | rxstep v => exact execRxstep_receiverInv hs h
  | poll => exact execPoll_receiverInv hs h
  | drain => exact execDrain_receiverInv hs h
  | reset => rw [execReset_frame h]; exact receiverInv_of_unreceived (by simp) rfl rfl
  | edge | pop | send2 | send4 | tick | status =>
    exact receiverInv_of_not_writer hs h (by simp) (by simp [Instr.operation])

end

/-- Settles O40: the invariants read neither the schedule nor the refusals, and every operation keeps
them. -/
theorem stepsKeepReceiverInvariant : Obligations.StepsKeepReceiverInvariant := fun _ _ hs h =>
  step_keeps (P := State.ReceiverInv)
    (fun _ _ hp => receiverInv_of_eq hp rfl rfl rfl rfl)
    (fun _ _ hp => receiverInv_of_eq hp rfl rfl rfl rfl)
    (fun _ _ _ hp hexec => exec_keeps_receiverInv hp hexec) hs h

/-- Settles O59: at power-on the timer is off with the player clear, nothing is received, and nothing is
recorded. -/
theorem invariantsHoldAtPowerOn : Obligations.InvariantsHoldAtPowerOn := by
  intro p prevTs ring seq s
  have hidle : s.IdleInv := fun _ => ⟨rfl, rfl, rfl⟩
  have htransmit : s.TransmitInv := ⟨hidle, fun hon => absurd hon Bool.false_ne_true⟩
  have hreceiver : s.ReceiverInv := receiverInv_of_unreceived (List.mem_cons_self ..) rfl rfl
  have hframes : s.FramesInRange := fun _ he => absurd he List.not_mem_nil
  have hmark : s.MarkInv := by simp [State.MarkInv, s, State.powerOn]
  exact ⟨hidle, htransmit, hreceiver, hframes, hmark, ⟨rfl, rfl⟩, rfl, rfl⟩

end Sys2Proof.Machine

/-!
### The memory and the unread entries (spec/20_memory.md R63, R70, R73 to R75)

The unread entries are those from `tail` up to `head`. A push writes at `head`, outside them; a pop reads at
`tail`, the first of them. No operation reads an entry outside them, so each commutes with replacing the
ring by one that agrees on them.
-/

namespace Sys2Proof.Machine

section

variable (s : State)

/-- The index behind the last unread entry is `head`. -/
theorem tail_add_occupancy : s.tail + BitVec.ofNat 6 s.occupancy = s.head := by
  unfold State.occupancy
  bv_omega

/-- The index of an unread entry is not the one a push writes. -/
theorem tail_add_ne_head {s : State} {k : Nat} (hk : k < s.occupancy) :
    s.tail + BitVec.ofNat 6 k ≠ s.head := by
  unfold State.occupancy at hk
  bv_omega

/-- A push counts one more entry; the 64th one empties the ring (R74). -/
theorem occupancy_push (q : Nat) : (s.push q).occupancy = (s.occupancy + 1) % 64 := by
  simp only [State.occupancy, push_head, push_tail, nextIndex_eq]
  bv_omega

/-- A pop of an entry counts one fewer (R134). -/
theorem occupancy_advanceTail {s : State} (h : s.head ≠ s.tail) :
    s.advanceTail.occupancy + 1 = s.occupancy := by
  simp only [State.occupancy, advanceTail_head, advanceTail_tail, nextIndex_eq]
  bv_omega

theorem unread_eq_nil {s : State} (h : s.occupancy = 0) : s.unread = [] :=
  List.eq_nil_of_length_eq_zero (by rw [unread_length, h])

end

/-- Settles O24: the push writes at `head`, which no unread entry's index is. -/
theorem pushGoesBehindUnread : Obligations.PushGoesBehindUnread := by
  intro s q h
  have hocc : (s.push q).occupancy = s.occupancy + 1 := by
    rw [occupancy_push, Nat.mod_eq_of_lt (by omega)]
  have hold : ∀ k ∈ List.range s.occupancy, entryAt (s.push q).ring (s.tail + BitVec.ofNat 6 k) =
      entryAt s.ring (s.tail + BitVec.ofNat 6 k) := fun k hk => by
    rw [push_entry, if_neg (tail_add_ne_head (List.mem_range.mp hk))]
  have hnew : entryAt (s.push q).ring (s.tail + BitVec.ofNat 6 s.occupancy) = BitVec.ofNat 8 q := by
    rw [push_entry, if_pos (tail_add_occupancy s)]
  rw [State.unread, hocc, List.range_succ, List.map_append, push_tail, List.map_congr_left hold,
    List.map_singleton, hnew]
  rfl

/-- A push onto 63 unread entries leaves none: the lap is lost (R74). -/
theorem unread_push_of_full {s : State} (q : Nat) (h : s.occupancy = 63) : (s.push q).unread = [] :=
  unread_eq_nil (by rw [occupancy_push, h])

/-- The values of the last lap with one more value behind them: the lap goes on, or ends with the 64th. -/
theorem drop_laps_concat {α : Type} (xs : List α) (x : α) :
    (xs ++ [x]).drop ((xs ++ [x]).length - (xs ++ [x]).length % 64) =
      if xs.length % 64 = 63 then [] else xs.drop (xs.length - xs.length % 64) ++ [x] := by
  rw [List.length_append, List.length_singleton]
  split
  · rw [List.drop_eq_nil_iff, List.length_append, List.length_singleton]
    omega
  · have hstart : xs.length + 1 - (xs.length + 1) % 64 = xs.length - xs.length % 64 := by omega
    rw [hstart, List.drop_append_of_le_length (Nat.sub_le ..)]

theorem pushAll_concat (s : State) (qs : List Nat) (q : Nat) :
    s.pushAll (qs ++ [q]) = (s.pushAll qs).push q := by
  simp [State.pushAll]

/-- After n pushes from empty the unread entries are the last `n mod 64` values (R74). -/
theorem unread_pushAll {s : State} (h : s.head = s.tail) (qs : List Nat) :
    (s.pushAll qs).unread =
      (qs.drop (qs.length - qs.length % 64)).map (fun q => BitVec.ofNat 8 q) := by
  induction qs using List.reverseRecOn with
  | nil => exact unread_eq_nil ((occupancy_eq_zero_iff _).mpr h)
  | append_singleton qs q ih =>
    have hocc : (s.pushAll qs).occupancy = qs.length % 64 := by
      rw [← unread_length, ih, List.length_map, List.length_drop]
      exact Nat.sub_sub_self (Nat.mod_le ..)
    rw [pushAll_concat, drop_laps_concat]
    split
    · next hfull => rw [unread_push_of_full q (hocc.trans hfull), List.map_nil]
    · next hroom =>
      rw [pushGoesBehindUnread _ q (by omega), ih, List.map_append, List.map_singleton]

/-- Pushes write nothing but `ring` and `head` (R132). -/
theorem pushAll_frame (s : State) (qs : List Nat) :
    ∃ ring head, s.pushAll qs = { s with ring := ring, head := head } := by
  induction qs using List.reverseRecOn with
  | nil => exact ⟨s.ring, s.head, rfl⟩
  | append_singleton qs q ih =>
    obtain ⟨ring, head, e⟩ := ih
    rw [pushAll_concat, e]
    exact ⟨_, _, rfl⟩

/-- Settles O25, by induction on the pushes from the last one back. -/
theorem overrunKeepsLastLap : Obligations.OverrunKeepsLastLap := fun s qs h =>
  ⟨unread_pushAll h qs, pushAll_frame s qs⟩

/-- Settles O50: only SEND writes `seq`, and on an enabled timer SEND raises its fault instead. -/
theorem playbackIsNotOverwritten : Obligations.PlaybackIsNotOverwritten := by
  intro i s t h hreset hon
  have hbusy : ∀ c value w, (s.send c value w).seq = s.seq := fun c value w => by
    obtain ⟨-, e⟩ | ⟨hoff, -⟩ := send_cases c value w s
    · rw [e, raise_seq]
    · exact absurd (hon.symm.trans hoff) (by decide)
  obtain ⟨-, -, -, hwriter, -⟩ := stateHasItsWriters i s t h hreset
  by_contra hne
  cases i <;> cases hwriter hne
  case send2 value => cases h; exact hne (hbusy ..)
  case send4 value => cases h; exact hne (hbusy ..)

/-- Settles O11: with no turn left and no DRAIN to resume, the next turn is the idle one. -/
theorem blockHoldsStateBetweenOperations : Obligations.BlockHoldsStateBetweenOperations := by
  rintro s hf ⟨hsched, hdrain⟩
  obtain ⟨hon, -⟩ | ⟨-, e⟩ := resumeDrain_cases s
  · exact absurd (hon.symm.trans hdrain) (by decide)
  · rw [step, nextTurn_of_clean hf, hsched]
    dsimp only
    rw [e]

end Sys2Proof.Machine

/-!
### Only unread entries are observed (spec/20_memory.md R73)

Each operation on a block with another ring does what it did, with the other ring carried along.
-/

namespace Sys2Proof.Machine

section

variable {s t : State} {r : Table}

/-- The ring `r` has the unread entries of `s` (R73). -/
def State.AgreesOnUnread (s : State) (r : Table) : Prop :=
  ∀ k, k < s.occupancy → entryAt r (s.tail + BitVec.ofNat 6 k) =
    entryAt s.ring (s.tail + BitVec.ofNat 6 k)

/-- With the ring `r` in place of the block's own, `i` has the outcome `t` but for entries that are not
unread (R73). -/
def RingUnobserved (i : Instr) (s t : State) (r : Table) : Prop :=
  ∃ r', exec i { s with ring := r } = .next { t with ring := r' } ∧ t.AgreesOnUnread r'

theorem agreesOnUnread_of_eq (hs : s.AgreesOnUnread r) (hring : t.ring = s.ring)
    (hhead : t.head = s.head) (htail : t.tail = s.tail) : t.AgreesOnUnread r := by
  unfold State.AgreesOnUnread State.occupancy at *
  rwa [hring, hhead, htail]

/-- The entry a pop takes is unread. -/
theorem entryAt_tail_of_agrees (hs : s.AgreesOnUnread r) (hne : s.head ≠ s.tail) :
    entryAt r s.tail = entryAt s.ring s.tail := by
  have hpos : 0 < s.occupancy := Nat.pos_of_ne_zero (mt (occupancy_eq_zero_iff s).mp hne)
  simpa using hs 0 hpos

/-- The entries left after a pop were unread before it, one place further on. -/
theorem agreesOnUnread_advanceTail (hs : s.AgreesOnUnread r) (hne : s.head ≠ s.tail) :
    s.advanceTail.AgreesOnUnread r := by
  intro k hk
  have hnext : s.advanceTail.tail + BitVec.ofNat 6 k = s.tail + BitVec.ofNat 6 (k + 1) := by
    rw [advanceTail_tail, nextIndex_eq]; bv_omega
  rw [hnext, advanceTail_ring]
  exact hs (k + 1) (by have := occupancy_advanceTail hne; omega)

/-- Pushed onto both rings, the new entry is the same in both, and every other unread entry was unread
before. -/
theorem agreesOnUnread_push (hs : s.AgreesOnUnread r) (q : Nat) :
    (s.push q).AgreesOnUnread (withEntry r s.head (BitVec.ofNat 8 q)) := by
  intro k hk
  rw [push_ring, push_tail, entryAt_withEntry, entryAt_withEntry]
  split
  · rfl
  · next hne =>
    have hlast : k ≠ s.occupancy := fun hc => hne (hc ▸ tail_add_occupancy s)
    exact hs k (by have := occupancy_push s q; omega)

/-- An operation that writes neither the ring nor its indices, and carries another ring along. -/
theorem ringUnobserved_of_kept {i : Instr} (hs : s.AgreesOnUnread r)
    (hexec : exec i { s with ring := r } = .next { t with ring := r })
    (hring : t.ring = s.ring) (hhead : t.head = s.head) (htail : t.tail = s.tail) :
    RingUnobserved i s t r :=
  ⟨r, hexec, agreesOnUnread_of_eq hs hring hhead htail⟩

theorem execEdge_ringUnobserved (hs : s.AgreesOnUnread r) {ts : Timestamp}
    (h : execEdge ts s = .next t) : RingUnobserved (.edge ts) s t r := by
  unfold execEdge at h
  simp only [RingUnobserved, exec, execEdge]
  cases h
  split
  · exact ⟨_, rfl, agreesOnUnread_push (s := { s with prevTs := ts }) hs _⟩
  · exact ⟨r, rfl, hs⟩

theorem pop_withRing (hs : s.AgreesOnUnread r) :
    ({ s with ring := r } : State).pop = s.pop.map fun p => (p.1, { p.2 with ring := r }) := by
  obtain ⟨h, e⟩ | ⟨h, e⟩ := pop_cases s
  · rw [e, pop_of_empty (s := { s with ring := r }) h]; rfl
  · rw [e, pop_of_nonempty (s := { s with ring := r }) h, Option.map_some, entryAt_tail_of_agrees hs h]
    rfl

theorem execPop_ringUnobserved (hs : s.AgreesOnUnread r) (h : execPop s = .next t) :
    RingUnobserved .pop s t r := by
  unfold execPop at h
  simp only [RingUnobserved, exec, execPop]
  rw [pop_withRing hs]
  obtain ⟨-, e⟩ | ⟨hne, e⟩ := pop_cases s <;> rw [e] at h ⊢ <;> cases h
  · exact ⟨r, rfl, hs⟩
  · exact ⟨r, rfl, agreesOnUnread_advanceTail hs hne⟩

/-- The receiver does not read the ring (R161). -/
theorem receive_withRing (v : Interval) (s : State) (r : Table) :
    ({ s with ring := r } : State).receive v = (s.receive v).map fun t => { t with ring := r } := by
  have hbit : ∀ b, ({ s with ring := r } : State).bandBit b =
      (s.bandBit b).map fun t => { t with ring := r } := fun b => by
    unfold State.bandBit State.checkBit
    split_ifs <;> rfl
  obtain ⟨hb, e⟩ | ⟨hb, e⟩ | ⟨b, hb, e⟩ := receive_cases v s <;> rw [e]
  · exact receive_of_start hb _
  · exact receive_of_other hb _
  · rw [receive_of_bit hb, hbit]

/-- What a poll comes to with another ring carried along. -/
def Polled.withRing (r : Table) : Polled → Polled
  | .empty => .empty
  | .took v t => .took v { t with ring := r }
  | .raised c t => .raised c { t with ring := r }

theorem poll_withRing (hs : s.AgreesOnUnread r) :
    ({ s with ring := r } : State).poll = s.poll.withRing r := by
  unfold State.poll
  rw [pop_withRing hs]
  obtain ⟨-, e⟩ | ⟨-, e⟩ := pop_cases s <;> rw [e]
  · rfl
  · dsimp only [Option.map_some]
    rw [receive_withRing]
    cases s.advanceTail.receive _ <;> rfl

/-- A poll that the receiver takes leaves the ring as a pop does (R169). -/
theorem agreesOnUnread_of_polled (hs : s.AgreesOnUnread r) (hne : s.head ≠ s.tail) {v : Interval}
    {u : State} (h : s.advanceTail.receive v = .ok u) : u.AgreesOnUnread r := by
  obtain ⟨-, hring, hhead, htail, -⟩ := receive_keeps h
  exact agreesOnUnread_of_eq (agreesOnUnread_advanceTail hs hne) hring hhead htail

theorem execPoll_ringUnobserved (hs : s.AgreesOnUnread r) (h : execPoll s = .next t) :
    RingUnobserved .poll s t r := by
  unfold execPoll at h
  simp only [RingUnobserved, exec, execPoll]
  rw [poll_withRing hs]
  obtain ⟨-, e⟩ | ⟨v, u, hne, -, hr, e⟩ | ⟨v, c, hne, -, -, e⟩ := poll_cases s <;>
    rw [e] at h ⊢ <;> cases h
  · exact ⟨r, rfl, hs⟩
  · exact ⟨r, rfl, agreesOnUnread_of_eq (agreesOnUnread_of_polled hs hne hr) rfl rfl rfl⟩
  · exact ⟨r, rfl, agreesOnUnread_advanceTail hs hne⟩

theorem execDrain_ringUnobserved (hs : s.AgreesOnUnread r) (h : execDrain s = .next t) :
    RingUnobserved .drain s t r := by
  unfold execDrain at h
  simp only [RingUnobserved, exec, execDrain]
  rw [poll_withRing hs]
  obtain ⟨-, e⟩ | ⟨v, u, hne, -, hr, e⟩ | ⟨v, c, hne, -, -, e⟩ := poll_cases s <;>
    rw [e] at h ⊢ <;> cases h
  · exact ⟨r, rfl, hs⟩
  · exact ⟨r, rfl, agreesOnUnread_of_eq (agreesOnUnread_of_polled hs hne hr) rfl rfl rfl⟩
  · exact ⟨r, rfl, agreesOnUnread_advanceTail hs hne⟩

theorem execRxstep_withRing {v : Interval} (h : execRxstep v s = .next t) (r : Table) :
    execRxstep v { s with ring := r } = .next { t with ring := r } := by
  unfold execRxstep at h ⊢
  rw [receive_withRing]
  cases e : s.receive v <;> rw [e] at h <;> cases h <;> rfl

theorem send_withRing {c : PayloadClass} {value : BitVec 32} {w : OpWord}
    (h : (.next (s.send c value w) : Host.Outcome State Fault Refusal) = .next t) (r : Table) :
    (.next (({ s with ring := r } : State).send c value w) : Host.Outcome State Fault Refusal) =
      .next { t with ring := r } := by
  cases h
  unfold State.send
  split <;> rfl

theorem playTick_withRing (s : State) (r : Table) :
    ({ s with ring := r } : State).playTick = { s.playTick with ring := r } := by
  have hcount : ({ s with ring := r } : State).countDown = { s.countDown with ring := r } := by
    unfold State.countDown; split <;> rfl
  have hload : ∀ u : State, ({ u with ring := r } : State).loadEntry = { u.loadEntry with ring := r } :=
    fun u => by
      simp only [State.loadEntry, State.stopPlayback, drive_eq]
      split <;> rfl
  unfold State.playTick
  rw [hcount, hload]
  split <;> rfl

theorem execTick_withRing (h : execTick s = .next t) (r : Table) :
    execTick { s with ring := r } = .next { t with ring := r } := by
  have hon := timerEnabled_of_execTick h
  rw [execTick, if_pos hon] at h ⊢
  cases h
  rw [playTick_withRing]

/-- RESET draws its ring, and leaves nothing unread (R241). -/
theorem execReset_ringUnobserved (r : Table) (h : execReset s = .next t) :
    RingUnobserved .reset s t r := by
  have hempty : t.occupancy = 0 := by rw [execReset_frame h, occupancy_eq_zero_iff]
  refine ⟨t.ring, ?_, fun k hk => absurd hk (by omega)⟩
  rw [← h]
  simp only [exec, execReset, drive_eq]
  rfl

end

/-- Settles O26, operation by operation: EDGE writes both rings alike at `head`; POP, POLL and DRAIN read
the oldest unread entry; RESET leaves nothing unread; the others do not read the ring. -/
theorem unreadSlotsAreUnobserved : Obligations.UnreadSlotsAreUnobserved := by
  intro i s t r h (hs : s.AgreesOnUnread r)
  change RingUnobserved i s t r
  cases i with
  | edge ts => exact execEdge_ringUnobserved hs h
  | pop => exact execPop_ringUnobserved hs h
  | poll => exact execPoll_ringUnobserved hs h
  | drain => exact execDrain_ringUnobserved hs h
  | reset => exact execReset_ringUnobserved r h
  | rxstep v =>
    refine ringUnobserved_of_kept hs (execRxstep_withRing h r) ?_ ?_ ?_ <;> rw [execRxstep_frame h]
  | tick => refine ringUnobserved_of_kept hs (execTick_withRing h r) ?_ ?_ ?_ <;> rw [execTick_frame h]
  | status => cases h; exact ringUnobserved_of_kept hs rfl rfl rfl rfl
  | send2 value => refine ringUnobserved_of_kept hs (send_withRing h r) ?_ ?_ ?_ <;> rw [send_frame h]
  | send4 value => refine ringUnobserved_of_kept hs (send_withRing h r) ?_ ?_ ?_ <;> rw [send_frame h]

end Sys2Proof.Machine

/-!
### The operation words (spec/30_encoding.md R99 to R106)

`decode_cases` says once what the decoder makes of a word, with R102's cases as numbers; the statements
about words that decode, and about the refusals, are read off it.
-/

namespace Sys2Proof

/-- Each operation's word names the operation and sets no unused field (R99, R100). -/
theorem encoded_statement (i : Instr) : Laws.Encoded.Statement i := by
  cases i with
  | edge ts => exact Laws.Encoded.edge ts
  | pop => exact Laws.Encoded.pop
  | rxstep v => exact Laws.Encoded.rxstep v
  | poll => exact Laws.Encoded.poll
  | drain => exact Laws.Encoded.drain
  | send2 value => exact Laws.Encoded.send2 value
  | send4 value => exact Laws.Encoded.send4 value
  | tick => exact Laws.Encoded.tick
  | status => exact Laws.Encoded.status
  | reset => exact Laws.Encoded.reset

/-- The operands read from an operation's word are its own (R101). -/
theorem decodeOperands_encode (i : Instr) : decodeOperands i.operation (encode i) = .ok i := by
  cases i <;> simp [decodeOperands, encode, Instr.operation]

/-- Settles O1: the word's operation code selects the operation, case (b) does not apply, and the operands
are read back. -/
theorem decodeOfEncode : Obligations.DecodeOfEncode := by
  intro i
  obtain ⟨hop, hunused⟩ := encoded_statement i
  simp [decode, hop, hunused, decodeOperands_encode]

/-- The codes that select an operation are those of R100's map. -/
theorem operationOf_eq_some_iff {op : BitVec 8} {o : Operation} :
    operationOf op = some o ↔ (op, o) ∈ opMap := by
  have hrows : ∀ row ∈ opMap, operationOf row.1 = some row.2 := by decide
  refine ⟨fun h => ?_, hrows (op, o)⟩
  obtain ⟨⟨op', o'⟩, hfind, rfl⟩ := Option.map_eq_some_iff.mp h
  obtain rfl : op' = op := by simpa using List.find?_some hfind
  exact List.mem_of_find?_eq_some hfind

/-- One code selects each operation (R100). -/
theorem operationOf_injective {op op' : BitVec 8} {o : Operation} (h : operationOf op = some o)
    (h' : operationOf op' = some o) : op = op' := by
  have hrows : ∀ row ∈ opMap, ∀ row' ∈ opMap, row.2 = row'.2 → row.1 = row'.1 := by decide
  exact hrows _ (operationOf_eq_some_iff.mp h) _ (operationOf_eq_some_iff.mp h') rfl

/-- R102's case (a) in numbers: the operation code is reserved. -/
def ReservedCode (w : OpWord) : Prop := w.toNat / 2 ^ 56 = 0 ∨ 10 ≤ w.toNat / 2 ^ 56

/-- R102's case (b) in numbers: a reserved field, or a field the operation does not use, is not 0. -/
def StrayField (w : OpWord) : Prop :=
  w.toNat / 2 ^ 40 % 2 ^ 16 ≠ 0 ∨ (w.toNat / 2 ^ 56 ≠ 6 ∧ w.toNat / 2 ^ 32 % 2 ^ 8 ≠ 0) ∨
    (w.toNat / 2 ^ 56 ≠ 1 ∧ w.toNat / 2 ^ 56 ≠ 3 ∧ w.toNat / 2 ^ 56 ≠ 6 ∧ w.toNat % 2 ^ 32 ≠ 0)

/-- R102's case (c) in numbers: a SEND whose length is not 2 or 4. -/
def BadSendLength (w : OpWord) : Prop :=
  w.toNat / 2 ^ 56 = 6 ∧ w.toNat / 2 ^ 32 % 2 ^ 8 ≠ 2 ∧ w.toNat / 2 ^ 32 % 2 ^ 8 ≠ 4

section

variable {w : OpWord} {o : Operation} {i : Instr}

theorem reservedCode_iff : ReservedCode w ↔ operationOf (opField w) = none := by
  rw [ReservedCode, ← opField_toNat]
  generalize opField w = op
  revert op
  decide

/-- The fields an operation uses, by the number of its code (R99). -/
theorem uses_iff (h : operationOf (opField w) = some o) :
    (o.usesLen = true ↔ w.toNat / 2 ^ 56 = 6) ∧
    (o.usesArg = true ↔ w.toNat / 2 ^ 56 = 1 ∨ w.toNat / 2 ^ 56 = 3 ∨ w.toNat / 2 ^ 56 = 6) := by
  have hrows : ∀ row ∈ opMap, (row.2.usesLen = true ↔ row.1.toNat = 6) ∧
      (row.2.usesArg = true ↔ row.1.toNat = 1 ∨ row.1.toNat = 3 ∨ row.1.toNat = 6) := by decide
  rw [← opField_toNat]
  exact hrows _ (operationOf_eq_some_iff.mp h)

theorem strayField_iff (h : operationOf (opField w) = some o) :
    StrayField w ↔ unusedFieldSet o w = true := by
  obtain ⟨hlen, harg⟩ := uses_iff h
  simp only [StrayField, unusedFieldSet, Bool.or_eq_true, Bool.and_eq_true, bne_iff_ne,
    Bool.not_eq_true', ← Bool.not_eq_true, hlen, harg, BitVec.toNat_ne, reservedField_toNat,
    lenField_toNat, argField_toNat, BitVec.ofNat_eq_ofNat, BitVec.toNat_ofNat]
  omega

theorem badSendLength_iff (h : operationOf (opField w) = some o) :
    BadSendLength w ↔ o = .send ∧ lenField w ≠ 2 ∧ lenField w ≠ 4 := by
  obtain ⟨hlen, -⟩ := uses_iff h
  rw [BadSendLength, ← hlen, ← lenField_toNat, Operation.usesLen, beq_iff_eq]
  simp [BitVec.toNat_ne]

/-- The three things SEND's length can come to (R102 (c)). -/
theorem decodeOperands_send_cases (w : OpWord) :
    (lenField w = 2 ∧ decodeOperands .send w = .ok (.send2 (argField w))) ∨
    (lenField w = 4 ∧ decodeOperands .send w = .ok (.send4 (argField w))) ∨
    (lenField w ≠ 2 ∧ lenField w ≠ 4 ∧ decodeOperands .send w = .error .sendLength) := by
  unfold decodeOperands
  split_ifs <;> simp_all

/-- The operands of a word without stray fields are read, but for a SEND of another length. -/
theorem decodeOperands_cases (h : operationOf (opField w) = some o) :
    (BadSendLength w ∧ decodeOperands o w = .error .sendLength) ∨
    (¬BadSendLength w ∧ ∃ i, decodeOperands o w = .ok i) := by
  rw [badSendLength_iff h]
  cases o with
  | send =>
    obtain ⟨hl, e⟩ | ⟨hl, e⟩ | ⟨h2, h4, e⟩ := decodeOperands_send_cases w
    · exact .inr ⟨by simp [hl], _, e⟩
    · exact .inr ⟨by simp [hl], _, e⟩
    · exact .inl ⟨⟨rfl, h2, h4⟩, e⟩
  | edge | pop | rxstep | poll | drain | tick | status | reset => exact .inr ⟨by simp, _, rfl⟩

/-- A word without stray fields is the word of the operands read from it (R99, R102). -/
theorem encode_of_decodeOperands (hop : operationOf (opField w) = some o)
    (hunused : unusedFieldSet o w = false) (h : decodeOperands o w = .ok i) : encode i = w := by
  obtain ⟨⟨hres, hlen⟩, harg⟩ : (reservedField w = 0 ∧ (o.usesLen = false → lenField w = 0)) ∧
      (o.usesArg = false → argField w = 0) := by simpa [unusedFieldSet] using hunused
  have hcode {op : BitVec 8} (h : operationOf op = some o) : opField w = op :=
    operationOf_injective hop h
  rw [← wordOf_fields w hres]
  cases o with
  | send =>
    rw [hcode (op := 6) rfl]
    obtain ⟨hl, e⟩ | ⟨hl, e⟩ | ⟨-, -, e⟩ := decodeOperands_send_cases w <;> rw [e] at h <;> cases h <;>
      rw [hl] <;> rfl
  | edge | rxstep =>
    cases h
    rw [hlen rfl]
    exact congrArg (wordOf · 0 _) (hcode rfl).symm
  | pop | poll | drain | tick | status | reset =>
    cases h
    rw [hlen rfl, harg rfl]
    exact congrArg (wordOf · 0 0) (hcode rfl).symm

/-- What the decoder makes of a word: the first of R102's cases that applies refuses it, and with none it
is the word of the operation it decodes to (R104). -/
theorem decode_cases (w : OpWord) :
    (ReservedCode w ∧ decode w = .error .reservedOp) ∨
    (¬ReservedCode w ∧ StrayField w ∧ decode w = .error .reservedField) ∨
    (¬ReservedCode w ∧ ¬StrayField w ∧ BadSendLength w ∧ decode w = .error .sendLength) ∨
    (¬ReservedCode w ∧ ¬StrayField w ∧ ¬BadSendLength w ∧
      ∃ i, decode w = .ok i ∧ w = encode i) := by
  rw [reservedCode_iff]
  cases hop : operationOf (opField w) with
  | none => exact .inl ⟨rfl, by simp [decode, hop]⟩
  | some o =>
    rw [strayField_iff hop]
    cases hunused : unusedFieldSet o w with
    | true => exact .inr (.inl ⟨by simp, rfl, by simp [decode, hop, hunused]⟩)
    | false =>
      have hdecode : decode w = decodeOperands o w := by simp [decode, hop, hunused]
      rw [hdecode]
      obtain ⟨hbad, e⟩ | ⟨hgood, i, e⟩ := decodeOperands_cases hop
      · exact .inr (.inr (.inl ⟨by simp, by simp, hbad, e⟩))
      · exact .inr (.inr (.inr ⟨by simp, by simp, hgood, i, e,
          (encode_of_decodeOperands hop hunused e).symm⟩))

end

/-- Settles O2: of the cases of `decode_cases` only the last decodes. -/
theorem encodeOfDecoded : Obligations.EncodeOfDecoded := by
  intro w i h
  obtain ⟨-, e⟩ | ⟨-, -, e⟩ | ⟨-, -, -, e⟩ | ⟨-, -, -, j, e, hw⟩ := decode_cases w <;>
    rw [e] at h <;> cases h
  exact hw.symm

/-- Settles O3: the cases of `decode_cases` exclude one another and each names its result. -/
theorem refusalCasesInOrder : Obligations.RefusalCasesInOrder := by
  intro w
  change (decode w = .error .reservedOp ↔ ReservedCode w) ∧
    (decode w = .error .reservedField ↔ ¬ReservedCode w ∧ StrayField w) ∧
    (decode w = .error .sendLength ↔ ¬ReservedCode w ∧ ¬StrayField w ∧ BadSendLength w) ∧
    (¬ReservedCode w ∧ ¬StrayField w ∧ ¬BadSendLength w ↔ ∃ i, decode w = .ok i ∧ w = encode i)
  obtain ⟨ha, e⟩ | ⟨ha, hb, e⟩ | ⟨ha, hb, hc, e⟩ | ⟨ha, hb, hc, i, e, hw⟩ := decode_cases w
  · simp [ha, e]
  · simp [ha, hb, e]
  · simp [ha, hb, hc, e]
  · simp [ha, hb, hc, e, ← hw]

/-- The words that decode are the words of operations, whose operand is the word's `arg` (R101). -/
theorem decodes_iff (w : OpWord) : (∃ i, decode w = .ok i) ↔
    w = encode (.edge (argField w)) ∨ w = encode .pop ∨ w = encode (.rxstep (argField w)) ∨
    w = encode .poll ∨ w = encode .drain ∨ w = encode (.send2 (argField w)) ∨
    w = encode (.send4 (argField w)) ∨ w = encode .tick ∨ w = encode .status ∨ w = encode .reset := by
  constructor
  · rintro ⟨i, h⟩
    obtain rfl := encodeOfDecoded w i h
    cases i <;> simp [encode]
  · have hdecodes (i : Instr) (h : w = encode i) : ∃ i, decode w = .ok i := ⟨i, h ▸ decodeOfEncode i⟩
    rintro (h | h | h | h | h | h | h | h | h | h) <;> exact hdecodes _ h

/-- A mask of the upper bits leaves the lower bits free. -/
theorem append_and_upper_iff {n m : Nat} (a u : BitVec n) (b : BitVec m) :
    (a ++ b) &&& (BitVec.allOnes n ++ 0#m) = u ++ 0#m ↔ a ++ b = u ++ b := by
  simp [BitVec.and_append, BitVec.append_left_inj]

/-- Under the mask of the upper 32 bits `arg` alone is free (R99). -/
theorem and_upperMask_iff (w : OpWord) (op len : BitVec 8) :
    w &&& 0xFFFFFFFF00000000 = wordOf op len 0 ↔ w = wordOf op len (argField w) := by
  have hsplit : w.extractLsb' 32 32 ++ argField w = w :=
    BitVec.extractLsb'_append_extractLsb' (w := 32) (len := 32)
  have h := append_and_upper_iff (w.extractLsb' 32 32) (op ++ (0 : BitVec 16) ++ len) (argField w)
  rw [hsplit] at h
  exact h

/-- Settles O4: a row with the full mask holds the one word of its operation, a row with the upper mask
its words with any operand. -/
theorem decodedWordsMatchTable : Obligations.DecodedWordsMatchTable := by
  intro w
  have hfull (m : OpWord) : w = m ↔ w &&& 0xFFFFFFFFFFFFFFFF = m := by
    rw [show (0xFFFFFFFFFFFFFFFF : OpWord) = BitVec.allOnes 64 from rfl, BitVec.and_allOnes]
  have hupper (op len : BitVec 8) := (and_upperMask_iff w op len).symm
  simp only [decodes_iff, List.exists_mem_cons_iff, List.not_mem_nil, false_and, exists_false, or_false]
  exact or_congr (hupper 1 0) <| or_congr (hfull _) <| or_congr (hupper 3 0) <| or_congr (hfull _) <|
    or_congr (hfull _) <| or_congr (hupper 6 2) <| or_congr (hupper 6 4) <| or_congr (hfull _) <|
    or_congr (hfull _) (hfull _)

/-- The number of SEND's word (R106). -/
theorem encode_sendInstr_toNat (c : PayloadClass) (value : BitVec 32) :
    (encode (Machine.sendInstr c value)).toNat =
      6 * 2 ^ 56 + (Machine.lenOf c).toNat * 2 ^ 32 + value.toNat := by
  cases c <;> exact toNat_wordOf ..

theorem sendLengthOk_iff (len : Nat) : sendLengthOk len = true ↔ len = 2 ∨ len = 4 := by
  simp [sendLengthOk]

/-- The payload class of an accepted length has that length. -/
theorem lenOf_classOfLen {len : Nat} (h : len = 2 ∨ len = 4) :
    Machine.lenOf (Machine.classOfLen len) = BitVec.ofNat 8 len := by
  obtain rfl | rfl := h <;> rfl

/-- What R106 accepts of a SEND line, and R108 of an RXFRAME line. -/
theorem sendOperandsOk_iff (len value : Nat) :
    (sendLengthOk len && fitsArg value) = true ↔ (len = 2 ∨ len = 4) ∧ value < 2 ^ 32 := by
  rw [Bool.and_eq_true, sendLengthOk_iff, fitsArg, decide_eq_true_iff]

/-- Settles O6: the line is accepted exactly when its operands fit, as SEND in its payload class. -/
theorem sendLineAssembles : Obligations.SendLineAssembles := by
  intro len value
  have hok : (Line.send len value).wellFormed = true ↔ (len = 2 ∨ len = 4) ∧ value < 2 ^ 32 :=
    sendOperandsOk_iff len value
  refine ⟨fun h => ⟨_, if_pos (hok.mpr h), ?_⟩, fun h => if_neg (mt hok.mp h)⟩
  obtain ⟨hlen, hvalue⟩ := h
  rw [Machine.lineInstr, encode_sendInstr_toNat, lenOf_classOfLen hlen, BitVec.toNat_ofNat,
    BitVec.toNat_ofNat, Nat.mod_eq_of_lt hvalue, Nat.mod_eq_of_lt (by omega)]

/-- Settles O5: each word is read by the decoder. -/
theorem writtenWordsDecode : Obligations.WrittenWordsDecode := by
  unfold Obligations.WrittenWordsDecode
  decide

end Sys2Proof

/-!
### Intervals and written entries (spec/30_encoding.md R91, R93, R107)
-/

namespace Sys2Proof.Machine

/-- Settles O19, band by band. -/
theorem bandTable : Obligations.BandTable := fun v =>
  ⟨band_eq_start_iff v, band_eq_zero_iff v, band_eq_one_iff v, band_eq_other_iff v⟩

/-- Settles O54: the start symbol bounds the period from both sides, within what the other two allow. -/
theorem roundTripTickPeriods : Obligations.RoundTripTickPeriods := by
  intro t
  rw [band_eq_start_iff, band_eq_zero_iff, band_eq_one_iff]
  unfold intervalUnits
  omega

/-- The least interval that the window accepts, by its mode (R107, R131). -/
def leastInterval : WindowMode → Nat
  | .quotient => 11
  | .microseconds => 10

theorem leastInterval_le_of_accept {mode : WindowMode} {d : Nat} (h : accept mode d (intervalUnits d) = true) :
    leastInterval mode ≤ intervalUnits d := by
  cases mode
  · obtain ⟨hlow, -⟩ := of_decide_eq_true h
    exact hlow
  · obtain ⟨hlow, -⟩ := of_decide_eq_true h
    exact (Nat.le_div_iff_mul_le (by decide)).mpr hlow.le

/-- An entry of a sequence is a symbol's count or the sentinel (R92). -/
theorem playbackEntry_mem (c : PayloadClass) (value : BitVec 32) {j : Nat} (h : j < dataBits c + 4) :
    playbackEntry c value j ∈ ([0, 2, 4, 6] : List Entry) := by
  obtain hlt | rfl : j < dataBits c + 3 ∨ j = dataBits c + 3 := by omega
  · obtain e | e | e := playbackEntry_symbol c value hlt <;> simp [e]
  · simp [playbackEntry_sentinel]

/-- SEND writes no other `seq` entries (R107). -/
theorem send_written {c : PayloadClass} {value : BitVec 32} {w : OpWord} {s : State} {j : Index}
    (h : entryAt (s.send c value w).seq j ≠ entryAt s.seq j) :
    entryAt (s.send c value w).seq j ∈ ([0, 2, 4, 6] : List Entry) := by
  obtain ⟨-, e⟩ | ⟨-, e⟩ := send_cases c value w s <;> rw [e] at h ⊢
  · exact absurd rfl h
  · simp only [entryAt_writeEntries_playback] at h ⊢
    split at h
    · next hlt => rw [if_pos hlt]; exact playbackEntry_mem c value hlt
    · exact absurd rfl h

/-- EDGE writes no interval outside the window (R107, R131). -/
theorem execEdge_written {ts : Timestamp} {s t : State} {j : Index} (h : execEdge ts s = .next t)
    (hne : entryAt t.ring j ≠ entryAt s.ring j) :
    leastInterval s.params.captureWindowMode ≤ (entryAt t.ring j).toNat ∧
      (entryAt t.ring j).toNat ≤ 199 := by
  unfold execEdge at h
  cases h
  split at hne
  · next haccept =>
    rw [if_pos haccept]
    rw [push_entry] at hne ⊢
    split at hne
    · next hj =>
      have hlt := accept_lt haccept
      rw [if_pos hj, BitVec.toNat_ofNat, Nat.mod_eq_of_lt (by omega)]
      exact ⟨leastInterval_le_of_accept haccept, by omega⟩
    · exact absurd rfl hne
  · exact absurd rfl hne

/-- Settles O21: only SEND writes `seq` and only EDGE writes `ring`. -/
theorem writtenEntriesInRange : Obligations.WrittenEntriesInRange := by
  intro i s t j h hreset
  obtain ⟨hring, -, -, hseq, -⟩ := stateHasItsWriters i s t h hreset
  constructor
  · intro hne
    have hsend : i.operation = .send := hseq fun e => hne (by rw [e])
    cases i <;> cases hsend <;> cases h <;> exact send_written hne
  · intro hne
    have hedge : i.operation = .edge := hring (.inr (.inl fun e => hne (by rw [e])))
    cases i <;> cases hedge
    exact execEdge_written h hne

end Sys2Proof.Machine

/-!
### Reception of a frame (spec/41_receiver.md R163 to R172)

`receiveBits` takes a frame's data bits into the receiver; `runInstrs_frame` runs a whole frame behind
a cleared count, whatever parity was left, so it serves a frame behind a start marker and one behind noise.
-/

namespace Sys2Proof.Machine

/-- An interval whose band carries the bit (R91, R161). -/
def CarriesBit (v : Interval) (b : Bool) : Prop := band v.toNat = bandOfBit b

/-- The bits `value[k-1]` down to `value[0]`, as they are sent (R200, R108). -/
def bitsDown (value : BitVec 32) : Nat → List Bool
  | 0 => []
  | k + 1 => value.getLsbD k :: bitsDown value k

@[simp] theorem bitsDown_length (value : BitVec 32) (k : Nat) : (bitsDown value k).length = k := by
  induction k with
  | zero => rfl
  | succ k ih => rw [bitsDown, List.length_cons, ih]

/-- The receiver after data bits that it takes (R166, R168). -/
def State.receiveBits (bs : List Bool) (s : State) : State :=
  bs.foldl (fun t b => (t.dataBit b).countBit) s

section

variable {s t : State} {v : Interval} {b : Bool}

@[simp] theorem receiveBits_cons (b : Bool) (bs : List Bool) (s : State) :
    s.receiveBits (b :: bs) = ((s.dataBit b).countBit).receiveBits bs := rfl

/-- Data bits leave everything but the message, its parity and the count as it was. -/
theorem receiveBits_frame (bs : List Bool) (s : State) :
    s.receiveBits bs = { s with
      data := (s.receiveBits bs).data, checksum := (s.receiveBits bs).checksum,
      bitsReceived := s.bitsReceived + BitVec.ofNat 32 bs.length } := by
  induction bs generalizing s with
  | nil => simp [State.receiveBits]
  | cons b bs ih =>
    have hcount : s.bitsReceived + 1 + BitVec.ofNat 32 bs.length =
        s.bitsReceived + BitVec.ofNat 32 (b :: bs).length := by
      rw [List.length_cons]; bv_omega
    rw [receiveBits_cons, ih, ← hcount]
    rfl

@[simp] theorem receiveBits_trace (bs : List Bool) : (s.receiveBits bs).trace = s.trace := by
  rw [receiveBits_frame]
@[simp] theorem receiveBits_bitsExpected (bs : List Bool) :
    (s.receiveBits bs).bitsExpected = s.bitsExpected := by rw [receiveBits_frame]
@[simp] theorem receiveBits_dataLength (bs : List Bool) :
    (s.receiveBits bs).dataLength = s.dataLength := by rw [receiveBits_frame]
@[simp] theorem receiveBits_bitsReceived (bs : List Bool) :
    (s.receiveBits bs).bitsReceived = s.bitsReceived + BitVec.ofNat 32 bs.length := by
  rw [receiveBits_frame]

/-- The parity folds the bits as the encoder's does (R97, R166). -/
theorem receiveBits_checksum (value : BitVec 32) (k : Nat) (s : State) :
    (s.receiveBits (bitsDown value k)).checksum = foldParity value s.checksum k := by
  induction k generalizing s with
  | zero => rfl
  | succ k ih => rw [bitsDown, receiveBits_cons, ih]; rfl

/-- Shifting in a bit is doubling and adding it, modulo the width. -/
theorem shiftIn_eq (d : BitVec 32) (b : Bool) :
    (d <<< 1) ||| (if b then 1 else 0) = BitVec.ofNat 32 (2 * d.toNat + b.toNat) := by
  have hconcat : (d <<< 1) ||| (if b then 1 else 0) = d.shiftConcat b := by
    ext i hi
    cases b <;> cases i <;> simp [BitVec.getElem_shiftConcat, BitVec.getElem_one]
  apply BitVec.eq_of_toNat_eq
  rw [hconcat, BitVec.toNat_shiftConcat, Nat.shiftLeft_eq, BitVec.toNat_ofNat]
  omega

/-- The bits are shifted in below the data held before (R166). -/
theorem receiveBits_data (value : BitVec 32) (k : Nat) (s : State) :
    (s.receiveBits (bitsDown value k)).data =
      BitVec.ofNat 32 (s.data.toNat * 2 ^ k + value.toNat % 2 ^ k) := by
  induction k generalizing s with
  | zero => simp [State.receiveBits, bitsDown, Nat.mod_one]
  | succ k ih =>
    have hbit : (value.getLsbD k).toNat = value.toNat / 2 ^ k % 2 := Nat.toNat_testBit ..
    have hsum : (2 * s.data.toNat + (value.getLsbD k).toNat) * 2 ^ k + value.toNat % 2 ^ k =
        s.data.toNat * 2 ^ (k + 1) + value.toNat % 2 ^ (k + 1) := by
      rw [Nat.mod_pow_succ, hbit]; ring
    rw [bitsDown, receiveBits_cons, ih, countBit_data, dataBit_data, shiftIn_eq, ← hsum]
    apply BitVec.eq_of_toNat_eq
    simp only [BitVec.toNat_ofNat, Nat.add_mod, Nat.mul_mod, Nat.mod_mod]

/-- RXSTEP with an interval that the receiver takes. -/
theorem exec_rxstep_of_receive (h : s.receive v = .ok t) : exec (.rxstep v) s = .next t := by
  simp [exec, execRxstep, h]

/-- A start interval comes first (R162). -/
theorem exec_rxstep_start (h : band v.toNat = .start) (s : State) :
    exec (.rxstep v) s = .next s.startMarker := exec_rxstep_of_receive (receive_of_start h s)

/-- The first bit behind a start marker or noise is the length bit (R164). -/
theorem exec_rxstep_lengthBit (h : CarriesBit v b) (hexp : s.bitsExpected ≠ 0)
    (hrec : s.bitsReceived = 0) : exec (.rxstep v) s = .next (s.lengthBit b).countBit := by
  apply exec_rxstep_of_receive
  rw [receive_of_bit h, State.bandBit, if_neg hexp, if_neg (by simp [hrec]), if_pos hrec]

/-- A bit before the last one expected is a data bit (R166). -/
theorem exec_rxstep_dataBit (h : CarriesBit v b) (hrec : 0 < s.bitsReceived.toNat)
    (hexp : s.bitsReceived.toNat + 1 < s.bitsExpected.toNat) :
    exec (.rxstep v) s = .next (s.dataBit b).countBit := by
  apply exec_rxstep_of_receive
  rw [receive_of_bit h, State.bandBit, if_neg (by bv_omega), if_neg (by bv_omega), if_neg (by bv_omega),
    if_neg (by bv_omega)]

/-- The last bit expected is the checksum bit (R165). -/
theorem exec_rxstep_checkBit (h : CarriesBit v b) (hrec : 0 < s.bitsReceived.toNat)
    (hexp : s.bitsReceived.toNat + 1 = s.bitsExpected.toNat) :
    exec (.rxstep v) s = .next (s.checkBit b).countBit := by
  apply exec_rxstep_of_receive
  rw [receive_of_bit h, State.bandBit, if_neg (by bv_omega), if_neg (by bv_omega), if_neg (by bv_omega),
    if_pos (by bv_omega)]

/-- A frame's data bits, one RXSTEP each (R166). -/
theorem runInstrs_dataBits {vs : List Interval} {bs : List Bool} (h : List.Forall₂ CarriesBit vs bs)
    (hrec : 0 < s.bitsReceived.toNat)
    (hexp : s.bitsReceived.toNat + bs.length < s.bitsExpected.toNat) :
    runInstrs (vs.map .rxstep) s = .next (s.receiveBits bs) := by
  induction h generalizing s with
  | nil => rfl
  | @cons v b vs bs hb _ ih =>
    rw [List.length_cons] at hexp
    have hcount : (s.dataBit b).countBit.bitsReceived.toNat = s.bitsReceived.toNat + 1 := by
      rw [countBit_bitsReceived, dataBit_bitsReceived]; bv_omega
    have hkept : (s.dataBit b).countBit.bitsExpected = s.bitsExpected := rfl
    rw [List.map_cons, runInstrs_cons (exec_rxstep_dataBit hb hrec (by omega)), receiveBits_cons]
    exact ih (by omega) (by rw [hcount, hkept]; omega)

/-- The checksum bit emits the frame held, or nothing (R165). -/
theorem checkBit_trace (b : Bool) (s : State) :
    (s.checkBit b).trace =
      s.trace ++ if s.checksum = b then [.frame s.dataLength s.data] else [] := by
  unfold State.checkBit
  split
  · rfl
  · exact (List.append_nil _).symm

@[simp] theorem classOfBit_lengthBitOf (c : PayloadClass) : classOfBit (lengthBitOf c) = c := by
  cases c <;> rfl

theorem frameBits_toNat (c : PayloadClass) : (frameBits c).toNat = dataBits c + 2 := by
  cases c <;> rfl

/-- What a frame's bits leave behind: the frame of the message exactly when the checksum bit is the parity,
folded on from the one `s` holds, and the count at the frame's length (R165, R172, R173). -/
structure FrameEnds (s : State) (c : PayloadClass) (value : BitVec 32) (q : Bool) (t : State) : Prop where
  trace : t.trace = s.trace ++ if foldParity value s.checksum (dataBits c) = q then
    [.frame (lenOf c) (BitVec.ofNat 32 (value.toNat % 2 ^ dataBits c))] else []
  received : t.bitsReceived.toNat = dataBits c + 2
  expected : t.bitsExpected = t.bitsReceived

section

variable {c : PayloadClass} {value : BitVec 32} {q : Bool} {len check : Interval} {bits : List Interval}

/-- The data bits and the checksum bit behind a length bit (R165, R166). -/
theorem runInstrs_afterLengthBit (hexp : s.bitsExpected = frameBits c) (hrec : s.bitsReceived = 1)
    (hlen : s.dataLength = lenOf c) (hdata : s.data = 0)
    (hbits : List.Forall₂ CarriesBit bits (bitsDown value (dataBits c))) (hcheck : CarriesBit check q) :
    ∃ t, runInstrs ((bits ++ [check]).map .rxstep) s = .next t ∧ FrameEnds s c value q t := by
  have hexpNat : s.bitsExpected.toNat = dataBits c + 2 := by rw [hexp, frameBits_toNat]
  have hcount : (s.receiveBits (bitsDown value (dataBits c))).bitsReceived.toNat = dataBits c + 1 := by
    have := dataBits_le c
    rw [receiveBits_bitsReceived, hrec, bitsDown_length]
    bv_omega
  have hdone : frameBits c = (s.receiveBits (bitsDown value (dataBits c))).bitsReceived + 1 := by
    have := frameBits_toNat c
    bv_omega
  have hrun := runInstrs_dataBits hbits (by rw [hrec]; decide)
    (by rw [hrec, hexpNat, bitsDown_length]; simp; omega)
  have hlast := exec_rxstep_checkBit (s := s.receiveBits (bitsDown value (dataBits c))) hcheck (by omega)
    (by rw [receiveBits_bitsExpected, hcount, hexpNat])
  have hall : runInstrs ((bits ++ [check]).map .rxstep) s =
      .next ((s.receiveBits (bitsDown value (dataBits c))).checkBit q).countBit := by
    rw [List.map_append, runInstrs_append hrun, List.map_singleton, runInstrs_cons hlast, runInstrs_nil]
  refine ⟨_, hall, ?_, ?_, ?_⟩
  · rw [countBit_trace, checkBit_trace, receiveBits_trace, receiveBits_checksum, receiveBits_dataLength,
      receiveBits_data, hlen, hdata]
    simp
  · rw [countBit_bitsReceived, checkBit_bitsReceived, ← hdone, frameBits_toNat]
  · rw [countBit_bitsExpected, checkBit_bitsExpected, receiveBits_bitsExpected, hexp,
      countBit_bitsReceived, checkBit_bitsReceived, hdone]

/-- A whole frame's bits, received with the count and `data` clear, as a start marker and noise both leave
them (R172, R173). -/
theorem runInstrs_frame (hexp : s.bitsExpected ≠ 0) (hrec : s.bitsReceived = 0) (hdata : s.data = 0)
    (hlen : CarriesBit len (lengthBitOf c))
    (hbits : List.Forall₂ CarriesBit bits (bitsDown value (dataBits c))) (hcheck : CarriesBit check q) :
    ∃ t, runInstrs ((len :: (bits ++ [check])).map .rxstep) s = .next t ∧ FrameEnds s c value q t := by
  obtain ⟨t, hrun, hends⟩ := runInstrs_afterLengthBit (s := (s.lengthBit (lengthBitOf c)).countBit)
    (by simp) (by simp [hrec]) (by simp) (by simp [hdata]) hbits hcheck
  refine ⟨t, ?_, ⟨hends.trace, hends.received, hends.expected⟩⟩
  rw [List.map_cons, runInstrs_cons (exec_rxstep_lengthBit hlen hexp hrec), hrun]

end

end

/-!
### What RXFRAME assembles to (spec/30_encoding.md R106, R108)
-/

/-- Well-formed lines assemble, each to its operation (R106). -/
theorem mapM_assembleLine {ls : List Line} (h : ∀ l ∈ ls, l.wellFormed = true) :
    ls.mapM assembleLine = some (ls.map lineInstr) := by
  induction ls with
  | nil => rfl
  | cons l ls ih =>
    obtain ⟨hl, hls⟩ := List.forall_mem_cons.mp h
    rw [List.mapM_cons, assembleLine, if_pos hl, ih hls]
    rfl

/-- The interval that RXFRAME feeds for a bit, as RXSTEP's operand (R108). -/
def symbolOperand (b : Bool) : Interval := BitVec.ofNat 32 (symbolInterval b)

theorem symbolOperand_carriesBit (b : Bool) : CarriesBit (symbolOperand b) b := by
  cases b <;> rfl

theorem dataLines_eq (value : BitVec 32) (k : Nat) :
    dataLines value k = (bitsDown value k).map fun b => .rxstep (symbolInterval b) := by
  induction k with
  | zero => rfl
  | succ k ih => rw [dataLines, ih]; rfl

/-- RXFRAME's operations: a start interval, then one RXSTEP for each bit of the frame (R108). -/
theorem assembleSource_rxframe {len value : Nat} (hlen : len = 2 ∨ len = 4) (hvalue : value < 2 ^ 32) :
    assembleSource (.pseudo (.rxframe len value)) =
      some (.rxstep (BitVec.ofNat 32 startInterval) ::
        (symbolOperand (lengthBitOf (classOfLen len)) ::
          ((bitsDown (BitVec.ofNat 32 value) (dataBits (classOfLen len))).map symbolOperand ++
            [symbolOperand (checksumBit (classOfLen len) (BitVec.ofNat 32 value))])).map .rxstep) := by
  have hok : (SourceLine.pseudo (.rxframe len value)).wellFormed = true :=
    (sendOperandsOk_iff len value).mpr ⟨hlen, hvalue⟩
  have hsymbol (b : Bool) : (Line.rxstep (symbolInterval b)).wellFormed = true := by cases b <;> rfl
  have hstart : (Line.rxstep startInterval).wellFormed = true := rfl
  rw [assembleSource, if_pos hok, mapM_assembleLine]
  · simp [expandSource, expandPseudo, dataLines_eq, lineInstr, symbolOperand, Function.comp_def]
  · simp only [expandSource, expandPseudo, dataLines_eq, List.forall_mem_cons, List.forall_mem_append,
      List.forall_mem_map]
    exact ⟨hstart, hsymbol _, fun b _ => hsymbol b, hsymbol _, fun _ h => absurd h List.not_mem_nil⟩

/-- Settles O42: the start interval clears the receiver and seeds the parity, and the bits that follow
are a frame whose checksum bit is the parity of its data bits. -/
theorem assembledFrameIsReceived : Obligations.AssembledFrameIsReceived := by
  intro len value s hlen hvalue
  have hbits (bs : List Bool) : List.Forall₂ CarriesBit (bs.map symbolOperand) bs := by
    simp [List.forall₂_map_left_iff, List.forall₂_same, symbolOperand_carriesBit]
  have hN : 8 * len = dataBits (classOfLen len) := by obtain rfl | rfl := hlen <;> rfl
  obtain ⟨t, hrun, hends⟩ := runInstrs_frame (s := s.startMarker) (value := BitVec.ofNat 32 value)
    (by simp) rfl rfl (symbolOperand_carriesBit _) (hbits _)
    (symbolOperand_carriesBit (checksumBit (classOfLen len) (BitVec.ofNat 32 value)))
  refine ⟨_, t, assembleSource_rxframe hlen hvalue, ?_, ?_⟩
  · rw [runInstrs_cons (exec_rxstep_start rfl s), hrun]
  · have hparity : foldParity (BitVec.ofNat 32 value) s.startMarker.checksum (dataBits (classOfLen len)) =
        checksumBit (classOfLen len) (BitVec.ofNat 32 value) := rfl
    rw [hends.trace, if_pos hparity, startMarker_trace, lenOf_classOfLen hlen, hN, BitVec.toNat_ofNat,
      Nat.mod_eq_of_lt hvalue]

end Sys2Proof.Machine

/-!
### Edge capture (spec/40_capture.md R130 to R136)

EDGE is a push or nothing beside `prev_ts`; POP takes the first unread entry. `unread_of_nonempty` splits that
entry off, so a run of POPs is an induction on the occupancy.
-/

namespace Sys2Proof.Machine

/-- The elapsed time as R130 computes it, on the numbers. -/
theorem elapsed_eq (ts prevTs : Timestamp) :
    elapsed ts prevTs = (ts.toNat + 2 ^ 32 - prevTs.toNat) % 2 ^ 32 := by
  unfold elapsed
  bv_omega

/-- EDGE at `ts` lies in the window of the mode (R131). -/
def State.acceptsEdge (ts : Timestamp) (s : State) : Bool :=
  accept s.params.captureWindowMode (elapsed ts s.prevTs) (intervalUnits (elapsed ts s.prevTs))

section

variable {s : State} {ts : Timestamp}

theorem exec_edge_of_accepted (h : s.acceptsEdge ts = true) :
    exec (.edge ts) s =
      .next (({ s with prevTs := ts } : State).push (intervalUnits (elapsed ts s.prevTs))) :=
  congrArg Host.Outcome.next (if_pos h)

theorem exec_edge_of_not_accepted (h : ¬s.acceptsEdge ts = true) :
    exec (.edge ts) s = .next { s with prevTs := ts } :=
  congrArg Host.Outcome.next (if_neg h)

end

/-- Settles O20: the acceptance is the window of the mode, and an accepted interval fits an entry. -/
theorem edgeCapturesInterval : Obligations.EdgeCapturesInterval := by
  intro ts s
  rw [← elapsed_eq]
  have hwindow : s.acceptsEdge ts = true ↔
      match s.params.captureWindowMode with
        | .quotient => 10 < elapsed ts s.prevTs / 100 ∧ elapsed ts s.prevTs / 100 < 200
        | .microseconds => 1000 < elapsed ts s.prevTs ∧ elapsed ts s.prevTs < 20000 := by
    unfold State.acceptsEdge
    cases s.params.captureWindowMode <;> exact decide_eq_true_iff
  by_cases h : s.acceptsEdge ts = true
  · refine ⟨_, exec_edge_of_accepted h, rfl, fun _ => ⟨?_, fun i hi => ?_, nextIndex_toNat _⟩,
      fun hout => absurd (hwindow.mp h) hout⟩
    · rw [push_entry, if_pos rfl, BitVec.toNat_ofNat]
      exact Nat.mod_eq_of_lt ((accept_lt h).trans (by decide))
    · rw [push_entry, if_neg hi]
  · exact ⟨_, exec_edge_of_not_accepted h, rfl, fun hin => absurd (hwindow.mpr hin) h,
      fun _ => ⟨rfl, rfl⟩⟩

/-- The state after a POP that takes an entry (R133, R136). -/
def State.afterPop (s : State) : State :=
  let v := (entryAt s.ring s.tail).zeroExtend 32
  (s.advanceTail.emit (.popped (some v))).giveBack (.interval (some v))

section

variable {s : State}

theorem exec_pop_of_empty (h : s.head = s.tail) :
    exec .pop s = .next ((s.emit (.popped none)).giveBack (.interval none)) := by
  simp only [exec, execPop, pop_of_empty h]

theorem exec_pop_of_nonempty (h : s.head ≠ s.tail) : exec .pop s = .next s.afterPop := by
  simp only [exec, execPop, pop_of_nonempty h, State.afterPop]

/-- The first unread entry is the one a pop takes; the others stay unread (R133, R134). -/
theorem unread_of_nonempty (h : s.head ≠ s.tail) :
    s.unread = entryAt s.ring s.tail :: s.advanceTail.unread := by
  have hnext (k : Nat) : s.tail + BitVec.ofNat 6 (k + 1) = s.tail + 1 + BitVec.ofNat 6 k := by bv_omega
  rw [State.unread, ← occupancy_advanceTail h, List.range_succ_eq_map, List.map_cons, List.map_map]
  congr 1
  · simp
  · simp only [State.unread, Function.comp_def, Nat.succ_eq_add_one, hnext, advanceTail_tail, nextIndex_eq,
      advanceTail_ring]

/-- As many POPs as there are unread entries give those entries and leave none (R134). -/
theorem runInstrs_pops {n : Nat} (h : s.occupancy = n) :
    ∃ t, runInstrs (List.replicate n .pop) s = .next t ∧
      t.trace = s.trace ++ s.unread.map (fun e => .popped (some (e.zeroExtend 32))) ∧
      t.head = t.tail := by
  induction n generalizing s with
  | zero => exact ⟨s, rfl, by rw [unread_eq_nil h]; simp, (occupancy_eq_zero_iff s).mp h⟩
  | succ n ih =>
    have hne : s.head ≠ s.tail := mt (occupancy_eq_zero_iff s).mpr (by omega)
    have hrest : s.afterPop.occupancy = n := Nat.succ.inj ((occupancy_advanceTail hne).trans h)
    obtain ⟨t, hrun, htrace, hempty⟩ := ih hrest
    refine ⟨t, ?_, ?_, hempty⟩
    · rw [List.replicate_succ, runInstrs_cons (exec_pop_of_nonempty hne), hrun]
    · rw [htrace, unread_of_nonempty hne, List.map_cons, List.append_cons]
      rfl

end

/-- Settles O22: the pop's two cases. -/
theorem popTakesEntryAtTail : Obligations.PopTakesEntryAtTail := fun s =>
  ⟨exec_pop_of_empty, fun h => ⟨s.afterPop, (entryAt s.ring s.tail).zeroExtend 32, exec_pop_of_nonempty h,
    BitVec.toNat_setWidth_of_le (by decide), nextIndex_toNat s.tail, rfl⟩⟩

/-- Settles O23: the run of POPs, and the occupancy on the numbers. -/
theorem occupancyCountsPops : Obligations.OccupancyCountsPops := by
  intro s
  obtain ⟨t, hrun, htrace, hempty⟩ := runInstrs_pops (s := s) rfl
  refine ⟨t, hrun, htrace, hempty, ?_, Nat.le_of_lt_succ (occupancy_lt s), ?_⟩
  · unfold State.occupancy
    bv_omega
  · rw [State.rxPending, bne_iff_ne, ne_eq, ne_eq, occupancy_eq_zero_iff]

end Sys2Proof.Machine

/-!
### The branches of the receiver (spec/41_receiver.md R162 to R168)

One lemma per branch says which interval takes it and what RXSTEP is there.
-/

namespace Sys2Proof.Machine

section

variable {s t : State} {v : Interval} {b : Bool}

/-- An in-band interval carries a bit (R91, R161). -/
theorem inBand_iff : band v.toNat = .zero ∨ band v.toNat = .one ↔ ∃ b, CarriesBit v b := by
  simp [CarriesBit, bandOfBit, Bool.exists_bool]

/-- A bit before the first start marker is ignored (R163). -/
theorem exec_rxstep_unstarted (h : CarriesBit v b) (hexp : s.bitsExpected = 0) :
    exec (.rxstep v) s = .next s := by
  apply exec_rxstep_of_receive
  rw [receive_of_bit h, State.bandBit, if_pos hexp]

/-- The checksum bit, wherever the frame's length puts it (R165). -/
theorem exec_rxstep_last (h : CarriesBit v b) (hexp : s.bitsExpected ≠ 0) (hrec : s.bitsReceived ≠ 0)
    (hlast : s.bitsReceived = s.bitsExpected - 1) :
    exec (.rxstep v) s = .next (s.checkBit b).countBit :=
  exec_rxstep_checkBit h (by bv_omega) (by bv_omega)

/-- Every other bit below the counter's end is a data bit, also one behind the frame's last (R166). -/
theorem exec_rxstep_notLast (h : CarriesBit v b) (hexp : s.bitsExpected ≠ 0) (hrec : s.bitsReceived ≠ 0)
    (hlast : s.bitsReceived ≠ s.bitsExpected - 1) (hend : s.bitsReceived.toNat ≠ 2 ^ 32 - 1) :
    exec (.rxstep v) s = .next (s.dataBit b).countBit := by
  apply exec_rxstep_of_receive
  rw [receive_of_bit h, State.bandBit, if_neg hexp, if_neg (by bv_omega), if_neg hrec, if_neg hlast]

/-- The counter below its end counts one more bit (R168). -/
theorem countBit_toNat (hend : s.bitsReceived.toNat ≠ 2 ^ 32 - 1) :
    s.countBit.bitsReceived.toNat = s.bitsReceived.toNat + 1 := by
  rw [countBit_bitsReceived]
  bv_omega

/-- A bit behind a start marker is taken and counted, in whichever branch (R168). -/
theorem receive_counts (h : CarriesBit v b) (hexp : s.bitsExpected ≠ 0)
    (hend : s.bitsReceived.toNat ≠ 2 ^ 32 - 1) :
    ∃ t, s.receive v = .ok t ∧ t.bitsReceived.toNat = s.bitsReceived.toNat + 1 := by
  have hcount (u : State) (hu : u.bitsReceived = s.bitsReceived) :
      u.countBit.bitsReceived.toNat = s.bitsReceived.toNat + 1 := by
    rw [countBit_toNat (by rwa [hu]), hu]
  rw [receive_of_bit h]
  obtain ⟨h0, -⟩ | ⟨-, hwrap, -⟩ | ⟨-, -, e⟩ | ⟨-, -, -, -, e⟩ | ⟨-, -, -, -, e⟩ := bandBit_cases b s
  · exact absurd h0 hexp
  · exact absurd (congrArg BitVec.toNat hwrap) hend
  · exact ⟨_, e, hcount _ rfl⟩
  · exact ⟨_, e, hcount _ (checkBit_bitsReceived b)⟩
  · exact ⟨_, e, hcount _ rfl⟩

/-- RXSTEP, POLL and DRAIN leave the receiver and the trace alone, or take one interval after a move of `tail`
(R169, R170). -/
theorem exec_receiver_cases {i : Instr} (h : exec i s = .next t)
    (hi : i.operation = .rxstep ∨ i.operation = .poll ∨ i.operation = .drain) :
    t = { s with tail := t.tail, fault := t.fault, returned := t.returned, draining := t.draining } ∨
      ∃ v u tl, ({ s with tail := tl } : State).receive v = .ok u ∧
        t = { u with returned := t.returned, draining := t.draining } := by
  cases i with
  | rxstep v =>
    rw [exec, execRxstep] at h
    cases e : s.receive v with
    | ok u => rw [e] at h; cases h; exact .inr ⟨v, t, s.tail, e, rfl⟩
    | error c => rw [e] at h; cases h; exact .inl rfl
  | poll =>
    rw [exec, execPoll] at h
    obtain ⟨-, e⟩ | ⟨v, u, -, -, hr, e⟩ | ⟨v, c, -, -, -, e⟩ := poll_cases s <;> rw [e] at h <;> cases h
    · exact .inl rfl
    · exact .inr ⟨v, u, _, hr, rfl⟩
    · exact .inl rfl
  | drain =>
    rw [exec, execDrain] at h
    obtain ⟨-, e⟩ | ⟨v, u, -, -, hr, e⟩ | ⟨v, c, -, -, -, e⟩ := poll_cases s <;> rw [e] at h <;> cases h
    · exact .inl rfl
    · exact .inr ⟨v, u, _, hr, rfl⟩
    · exact .inl rfl
  | edge | pop | send2 | send4 | tick | status | reset => simp [Instr.operation] at hi

/-- The receiver never goes back to before the first start marker (R163). -/
theorem receive_started (h : s.receive v = .ok t) (hexp : t.bitsExpected = 0) : s.bitsExpected = 0 := by
  obtain ⟨-, e⟩ | ⟨-, e⟩ | ⟨b, -, e⟩ := receive_cases v s <;> rw [e] at h
  · cases h; cases hexp
  · cases h; exact hexp
  · obtain ⟨h0, -⟩ | ⟨-, -, e⟩ | ⟨-, -, e⟩ | ⟨-, -, -, -, e⟩ | ⟨-, -, -, -, e⟩ := bandBit_cases b s
    · exact h0
    all_goals rw [e] at h; cases h
    · cases b <;> cases hexp
    · rwa [countBit_bitsExpected, checkBit_bitsExpected] at hexp
    · exact hexp

end

/-- Settles O27: the interval is in the START band. -/
theorem startMarkerResyncs : Obligations.StartMarkerResyncs := fun v s hlo hhi =>
  exec_rxstep_start ((band_eq_start_iff v.toNat).mpr ⟨hlo, hhi⟩) s

/-- Settles O28: a bit is ignored there, and the receiver itself only leaves that state. -/
theorem inBandIgnoredBeforeStart : Obligations.InBandIgnoredBeforeStart := by
  refine ⟨fun v s hband hexp => ?_, fun i s t h hreset hexp => ?_⟩
  · obtain ⟨b, hb⟩ := inBand_iff.mp hband
    exact exec_rxstep_unstarted hb hexp
  · by_contra hne
    obtain ⟨-, -, hwriter, -⟩ := stateHasItsWriters i s t h hreset
    have hi := hwriter (.inl fun heq => hne (heq.symm.trans hexp))
    obtain e | ⟨v, u, tl, hr, e⟩ := exec_receiver_cases h hi <;> rw [e] at hexp
    · exact hne hexp
    · exact hne (receive_started (s := { s with tail := tl }) (t := u) hr hexp)

/-- Settles O29: the interval carries the length bit, 0 or 1. -/
theorem lengthBitSelectsFrame : Obligations.LengthBitSelectsFrame := by
  intro v s hexp hrec
  have hone : s.bitsReceived + 1 = 1 := by rw [hrec]; rfl
  refine ⟨fun hv => ?_, fun hv => ?_⟩
  · have hb : CarriesBit v false := (band_eq_zero_iff v.toNat).mpr hv
    rw [exec_rxstep_lengthBit hb hexp hrec, ← hone]
    rfl
  · have hb : CarriesBit v true := (band_eq_one_iff v.toNat).mpr hv
    rw [exec_rxstep_lengthBit hb hexp hrec, ← hone]
    rfl

/-- All that the checksum bit's test can do (R165). -/
theorem checkBit_eq (b : Bool) (s : State) : s.checkBit b =
    { s with trace := s.trace ++ if s.checksum = b then [.frame s.dataLength s.data] else [] } := by
  rw [← checkBit_trace]
  unfold State.checkBit
  split <;> rfl

/-- Settles O30: the interval takes the checksum bit's branch. -/
theorem checksumBitValidates : Obligations.ChecksumBitValidates := by
  intro v b s hb hexp hrec hlast
  rw [exec_rxstep_last hb hexp hrec hlast, checkBit_eq]
  rfl

/-- Settles O31: the interval takes the data bit's branch, which shifts the bit in. -/
theorem dataBitAccumulates : Obligations.DataBitAccumulates := by
  intro v b s hb hexp hrec hlast hend
  refine ⟨_, exec_rxstep_notLast hb hexp hrec hlast hend, ?_, countBit_toNat hend, rfl⟩
  rw [countBit_data, dataBit_data, shiftIn_eq, BitVec.toNat_ofNat]

/-- Settles O32: the interval is in the OTHER band. -/
theorem noiseResetsPartially : Obligations.NoiseResetsPartially := fun v s hv =>
  exec_rxstep_of_receive (receive_of_other ((band_eq_other_iff v.toNat).mpr hv) s)

/-- Settles O33: the interval carries a bit, and each branch counts it. -/
theorem inBandIntervalsAreCounted : Obligations.InBandIntervalsAreCounted := by
  intro v s hband hexp hend
  obtain ⟨b, hb⟩ := inBand_iff.mp hband
  obtain ⟨t, hr, hcount⟩ := receive_counts hb hexp hend
  exact ⟨t, exec_rxstep_of_receive hr, hcount⟩

end Sys2Proof.Machine

/-!
### Every frame in the trace is in range (spec/41_receiver.md R174)

Only the checksum bit emits a FRAME, with the payload class and the bound on `data` that the receiver invariants
give at that count.
-/

namespace Sys2Proof.Machine

section

variable {s t : State}

theorem framesInRange_of_eq (hs : s.FramesInRange) (htrace : t.trace = s.trace) : t.FramesInRange := by
  rwa [State.FramesInRange, htrace]

theorem framesInRange_of_append {es : List Event} (hs : s.FramesInRange) (hes : ∀ e ∈ es, e.InRange)
    (htrace : t.trace = s.trace ++ es) : t.FramesInRange := by
  rw [State.FramesInRange, htrace]
  exact List.forall_mem_append.mpr ⟨hs, hes⟩

theorem framesInRange_of_emitted {e : Event} (hs : s.FramesInRange) (htrace : t.trace = s.trace ++ [e])
    (he : e.InRange) : t.FramesInRange :=
  framesInRange_of_append hs (List.forall_mem_singleton.mpr he) htrace

theorem framesInRange_drive (hs : s.FramesInRange) (l : Bool) : (s.drive l).FramesInRange := by
  refine framesInRange_of_append hs ?_ (drive_trace s l)
  split <;> simp [Event.InRange]

/-- With all data bits of the frame received, the message held is in range (R174). -/
theorem frame_inRange (hs : s.ReceiverInv) (hrec : s.bitsReceived ≠ 0)
    (hlast : s.bitsReceived = s.bitsExpected - 1) : (Event.frame s.dataLength s.data).InRange := by
  obtain ⟨c, hexp, hlen⟩ := hs.length hrec
  cases c with
  | two =>
    have hbound := hs.bounded hrec
    rw [hlast, hexp] at hbound
    exact .inl ⟨hlen, hbound⟩
  | four => exact .inr hlen

theorem framesInRange_checkBit (hs : s.ReceiverInv) (hf : s.FramesInRange) (hrec : s.bitsReceived ≠ 0)
    (hlast : s.bitsReceived = s.bitsExpected - 1) (b : Bool) : (s.checkBit b).FramesInRange := by
  unfold State.checkBit
  split
  · exact framesInRange_of_emitted hf rfl (frame_inRange hs hrec hlast)
  · exact hf

/-- The receiver emits no frame out of range (R165, R174). -/
theorem receive_framesInRange (hs : s.ReceiverInv) (hf : s.FramesInRange) {v : Interval}
    (h : s.receive v = .ok t) : t.FramesInRange := by
  obtain ⟨-, e⟩ | ⟨-, e⟩ | ⟨b, -, e⟩ := receive_cases v s <;> rw [e] at h
  · cases h; exact hf
  · cases h; exact hf
  · obtain ⟨-, e⟩ | ⟨-, -, e⟩ | ⟨-, -, e⟩ | ⟨-, hrec, -, hlast, e⟩ | ⟨-, -, -, -, e⟩ := bandBit_cases b s <;>
      rw [e] at h <;> cases h
    · exact hf
    · exact hf
    · exact framesInRange_checkBit hs hf hrec hlast b
    · exact hf

theorem playTick_framesInRange (hf : s.FramesInRange) : s.playTick.FramesInRange := by
  obtain ⟨-, e⟩ | ⟨-, -, e⟩ | ⟨-, -, e⟩ := playTick_cases s <;> rw [e]
  · exact hf
  · exact framesInRange_of_emitted hf rfl trivial
  · refine framesInRange_of_append hf ?_ rfl
    split <;> simp [Event.InRange]

theorem exec_keeps_framesInRange {i : Instr} (hs : s.ReceiverInv) (hf : s.FramesInRange)
    (h : exec i s = .next t) : t.FramesInRange := by
  cases i with
  | edge ts => rw [execEdge_frame h]; exact hf
  | pop =>
    rw [exec, execPop] at h
    obtain ⟨-, e⟩ | ⟨-, e⟩ := pop_cases s <;> rw [e] at h <;> cases h
    all_goals exact framesInRange_of_emitted hf rfl trivial
  | rxstep | poll | drain =>
    obtain e | ⟨v, u, tl, hr, e⟩ := exec_receiver_cases h (by simp [Instr.operation])
    · rw [e]; exact hf
    · have hu : u.FramesInRange :=
        receive_framesInRange (s := { s with tail := tl }) (receiverInv_of_eq hs rfl rfl rfl rfl) hf hr
      rw [e]; exact hu
  | send2 | send4 => rw [send_frame h]; exact hf
  | tick =>
    rw [exec, execTick, if_pos (timerEnabled_of_execTick h)] at h
    cases h
    exact playTick_framesInRange hf
  | status => cases h; exact framesInRange_of_emitted hf rfl trivial
  | reset => cases h; exact framesInRange_of_eq (framesInRange_drive hf false) rfl

end

/-- Settles O41, together with the receiver invariants, which bound the message when the checksum bit comes. -/
theorem stepsKeepFramesInRange : Obligations.StepsKeepFramesInRange := fun _ _ hs hf h =>
  (step_keeps (P := fun s => s.ReceiverInv ∧ s.FramesInRange)
    (fun _ _ ⟨hp, hq⟩ => ⟨receiverInv_of_eq hp rfl rfl rfl rfl, hq⟩)
    (fun _ _ ⟨hp, hq⟩ => ⟨receiverInv_of_eq hp rfl rfl rfl rfl, hq⟩)
    (fun _ _ _ ⟨hp, hq⟩ hexec =>
      ⟨exec_keeps_receiverInv hp hexec, exec_keeps_framesInRange hp hq hexec⟩) ⟨hs, hf⟩ h).2

end Sys2Proof.Machine

/-!
### The acceptance law, behind a start marker and behind noise (spec/41_receiver.md R172, R173)

Both rest on `runInstrs_frame`: they differ in the parity that the first interval leaves.
-/

namespace Sys2Proof.Machine

theorem bitsDown_eq (value : BitVec 32) (k : Nat) :
    bitsDown value k = (List.range k).map fun j => value.getLsbD (k - 1 - j) := by
  induction k with
  | zero => rfl
  | succ k ih =>
    have hnext (j : Nat) : k + 1 - 1 - (j + 1) = k - 1 - j := by omega
    rw [bitsDown, ih, List.range_succ_eq_map, List.map_cons, List.map_map]
    simp only [Function.comp_def, Nat.succ_eq_add_one, hnext]
    rfl

/-- Intervals in the bands of a value's bits carry those bits (R91). -/
theorem carriesBits_of_bands {bits : List Interval} {x : BitVec 32} {n : Nat}
    (h : bits.map (fun v => band v.toNat) =
      (List.range n).map fun j => if x.getLsbD (n - 1 - j) then Band.one else Band.zero) :
    List.Forall₂ CarriesBit bits (bitsDown x n) := by
  rw [bitsDown_eq, List.forall₂_map_right_iff]
  rwa [← List.forall₂_eq_eq_eq, List.forall₂_map_left_iff, List.forall₂_map_right_iff] at h

/-- The trace a frame leaves, of a message that fits its payload class. -/
theorem FrameEnds.trace_eq {s t : State} {c : PayloadClass} {x : BitVec 32} {q : Bool}
    (h : FrameEnds s c x q t) (hx : x.toNat < 2 ^ dataBits c) :
    t.trace = s.trace ++
      if q = foldParity x s.checksum (dataBits c) then [.frame (lenOf c) x] else [] := by
  have hvalue : BitVec.ofNat 32 (x.toNat % 2 ^ dataBits c) = x := by
    rw [Nat.mod_eq_of_lt hx, BitVec.ofNat_toNat, BitVec.setWidth_eq]
  rw [h.trace, hvalue]
  simp only [eq_comm (a := q)]

/-- Settles O38: the start interval clears the receiver and seeds the parity, whatever it held. -/
theorem frameAcceptance : Obligations.FrameAcceptance := by
  intro s c x q start len check bits hx hstart hlen hbits hcheck
  obtain ⟨t, hrun, hends⟩ := runInstrs_frame (s := s.startMarker) (c := c) (q := q) (by simp) rfl rfl hlen
    (carriesBits_of_bands hbits) hcheck
  refine ⟨t, ?_, ?_, hends.received, hends.expected⟩
  · rw [List.map_cons, runInstrs_cons (exec_rxstep_start hstart s), hrun]
  · rw [hends.trace_eq hx, ← checksumBit_eq]
    rfl

/-- Settles O39: noise clears the count and the message, and keeps the parity that was left. -/
theorem parityCarriesOverNoise : Obligations.ParityCarriesOverNoise := by
  intro s c x q noise len check bits hexp hx hnoise hlen hbits hcheck
  obtain ⟨t, hrun, hends⟩ := runInstrs_frame (s := s.noise) (c := c) (q := q) hexp rfl rfl hlen
    (carriesBits_of_bands hbits) hcheck
  refine ⟨t, ?_, ?_⟩
  · rw [List.map_cons, runInstrs_cons (exec_rxstep_of_receive (receive_of_other hnoise s)), hrun]
  · rw [hends.trace_eq hx, foldParity_eq]
    rfl

end Sys2Proof.Machine

/-!
### POLL and DRAIN (spec/41_receiver.md R169, R170)

One pop and one receiver step, by whether the popped interval meets the counter's end. A DRAIN is an induction
on the unread entries: every step of it is again `exec .drain`, in the state the one before left.
-/

namespace Sys2Proof.Machine

/-- The interval that the next pop takes (R133). -/
def State.oldest (s : State) : Interval := (entryAt s.ring s.tail).zeroExtend 32

/-- `v` is in band with the counter at its end: the receiver raises (R264). -/
def State.Wraps (s : State) (v : Interval) : Prop :=
  s.bitsExpected ≠ 0 ∧ s.bitsReceived.toNat = 2 ^ 32 - 1 ∧ (band v.toNat = .zero ∨ band v.toNat = .one)

section

variable {s t : State} {v : Interval}

theorem receive_of_wraps (h : s.Wraps v) : s.receive v = .error .rxCountWrap := by
  obtain ⟨hexp, hend, hband⟩ := h
  obtain ⟨b, hb⟩ := inBand_iff.mp hband
  have hmax : s.bitsReceived = 0xFFFFFFFF := BitVec.eq_of_toNat_eq hend
  rw [receive_of_bit hb, State.bandBit, if_neg hexp, if_pos hmax]

theorem receive_of_not_wraps (h : ¬s.Wraps v) : ∃ t, s.receive v = .ok t := by
  cases e : s.receive v with
  | ok t => exact ⟨t, rfl⟩
  | error c =>
    obtain ⟨-, hexp, hmax, hband⟩ := receive_error e
    exact absurd ⟨hexp, by rw [hmax]; rfl, inBand_iff.mpr hband⟩ h

theorem advanceTail_eq (s : State) : s.advanceTail = { s with tail := s.tail + 1 } := by
  rw [State.advanceTail, nextIndex_eq]

theorem poll_of_empty (h : s.head = s.tail) : s.poll = .empty := by
  rw [State.poll, pop_of_empty h]

theorem poll_of_wraps (h : s.head ≠ s.tail) (hw : s.Wraps s.oldest) :
    s.poll = .raised .rxCountWrap s.advanceTail := by
  have hr : s.advanceTail.receive s.oldest = .error .rxCountWrap := receive_of_wraps hw
  rw [State.oldest] at hr
  simp only [State.poll, pop_of_nonempty h, hr]

theorem poll_of_not_wraps (h : s.head ≠ s.tail) (hw : ¬s.Wraps s.oldest) :
    ∃ u, s.advanceTail.receive s.oldest = .ok u ∧ s.poll = .took s.oldest u := by
  obtain ⟨u, hr⟩ := receive_of_not_wraps (s := s.advanceTail) hw
  refine ⟨u, hr, ?_⟩
  rw [State.oldest] at hr
  simp only [State.poll, pop_of_nonempty h, hr, State.oldest]

/-- The receiver counts at most the one bit (R168). -/
theorem receive_count_le (h : s.receive v = .ok t) :
    t.bitsReceived.toNat ≤ s.bitsReceived.toNat + 1 := by
  have hcount (u : State) (hu : u.bitsReceived = s.bitsReceived) :
      u.countBit.bitsReceived.toNat ≤ s.bitsReceived.toNat + 1 := by
    rw [countBit_bitsReceived, hu, BitVec.toNat_add]
    exact Nat.mod_le ..
  obtain ⟨-, e⟩ | ⟨-, e⟩ | ⟨b, -, e⟩ := receive_cases v s <;> rw [e] at h
  · cases h; exact Nat.zero_le _
  · cases h; exact Nat.zero_le _
  · obtain ⟨-, e⟩ | ⟨-, -, e⟩ | ⟨-, -, e⟩ | ⟨-, -, -, -, e⟩ | ⟨-, -, -, -, e⟩ := bandBit_cases b s <;>
      rw [e] at h <;> cases h
    · exact Nat.le_succ _
    · exact hcount _ rfl
    · exact hcount _ (checkBit_bitsReceived b)
    · exact hcount _ rfl

end

/-- Settles O35: the poll's three cases. -/
theorem pollFeedsReceiver : Obligations.PollFeedsReceiver := by
  intro s
  rw [← advanceTail_eq]
  refine ⟨fun h => ?_, fun h => ⟨fun hw => ?_, fun hw => ?_⟩⟩
  · rw [exec, execPoll, poll_of_empty h]
    rfl
  · obtain ⟨u, hr, hpoll⟩ := poll_of_not_wraps h hw
    refine ⟨u, exec_rxstep_of_receive hr, ?_⟩
    rw [exec, execPoll, hpoll]
    rfl
  · rw [exec, execPoll, poll_of_wraps h hw]
    rfl

section

variable {s : State}

theorem exec_drain_of_empty (h : s.head = s.tail) :
    exec .drain s = .next { s with draining := false } := by
  rw [exec, execDrain, poll_of_empty h]

theorem exec_drain_of_wraps (h : s.head ≠ s.tail) (hw : s.Wraps s.oldest) :
    exec .drain s =
      .next (({ s.advanceTail with draining := false } : State).raise .rxCountWrap (encode .drain)) := by
  rw [exec, execDrain, poll_of_wraps h hw]

/-- An iteration of DRAIN that takes an interval goes on (R170). -/
theorem exec_drain_of_not_wraps (h : s.head ≠ s.tail) (hw : ¬s.Wraps s.oldest) :
    ∃ u, s.advanceTail.receive s.oldest = .ok u ∧ exec .drain s = .next { u with draining := true } := by
  obtain ⟨u, hr, hpoll⟩ := poll_of_not_wraps h hw
  exact ⟨u, hr, by rw [exec, execDrain, hpoll]⟩

end

/-- Settles O36: the three cases of DRAIN's iteration. -/
theorem drainIteratesPoll : Obligations.DrainIteratesPoll := by
  intro s
  rw [← advanceTail_eq]
  refine ⟨exec_drain_of_empty, fun h => ⟨fun hw => ?_, fun hw => ?_⟩⟩
  · obtain ⟨u, hr, hdrain⟩ := exec_drain_of_not_wraps h hw
    exact ⟨u, exec_rxstep_of_receive hr, hdrain⟩
  · exact exec_drain_of_wraps h hw

/-- Settles O10: each of the three turns is the DRAIN's. -/
theorem drainGoesOn : Obligations.DrainGoesOn := by
  intro s hf hd
  have hresume (sch : List Turn) : ({ s with schedule := sch } : State).resumeDrain =
      .run .drain { s with schedule := sch } := if_pos hd
  refine ⟨fun hs => ?_, fun rest hs => ?_, fun w rest hs hw => ?_⟩
  · rw [step, nextTurn_of_clean hf, hs]
    dsimp only
    rw [hresume s.schedule]
  · rw [step, nextTurn_of_clean hf, hs]
    dsimp only
    rw [hresume rest]
  · have hwait : s.mustWait w = true := by rw [State.mustWait, hd, hw]; rfl
    rw [step, nextTurn_of_clean hf, hs]
    dsimp only
    rw [if_pos hwait]

/-- The block as a DRAIN leaves it but for the receiver: every entry popped, and no DRAIN in progress. -/
def State.drained (s : State) : State := { s with tail := s.head, draining := false }

/-- What a DRAIN of `s` ends in: nothing unread, nothing left to run, and the receiver after the unread
intervals in order (R170, R309). -/
structure DrainEnds (s u : State) : Prop where
  empty : u.head = u.tail
  usedUp : u.SequenceUsedUp
  clean : u.fault = none
  received : runInstrs (s.unread.map fun e => .rxstep (e.zeroExtend 32)) s.drained = .next u

section

variable {s t : State} {v : Interval}

/-- The receiver takes an interval alike before and after the ring is emptied. -/
theorem exec_rxstep_drained (h : s.advanceTail.receive v = .ok t) :
    exec (.rxstep v) s.drained = .next t.drained := by
  have hhead : t.head = s.head := by rw [receive_frame h]; rfl
  have hsched : t.schedule = s.schedule := by rw [receive_frame h]; rfl
  apply exec_rxstep_of_receive
  calc s.drained.receive v
    _ = (s.advanceTail.receive v).map
          fun u => { u with tail := s.head, schedule := s.schedule, draining := false } :=
        receive_of_run v s.advanceTail s.head s.schedule false
    _ = .ok t.drained := by rw [h, ← hhead, ← hsched]; rfl

theorem drainEnds_of_empty (h : s.head = s.tail) (hsched : s.schedule = []) (hf : s.fault = none) :
    DrainEnds s { s with draining := false } := by
  refine ⟨h, ⟨hsched, rfl⟩, hf, ?_⟩
  rw [unread_eq_nil ((occupancy_eq_zero_iff s).mpr h), State.drained, h]
  rfl

/-- An iteration that takes an interval, then the end of the DRAIN that goes on. -/
theorem drainEnds_of_took {u : State} (h : s.head ≠ s.tail) (hr : s.advanceTail.receive s.oldest = .ok t)
    (hu : DrainEnds { t with draining := true } u) : DrainEnds s u := by
  have hunread : ({ t with draining := true } : State).unread = s.advanceTail.unread := by
    rw [receive_frame hr]
    rfl
  refine ⟨hu.empty, hu.usedUp, hu.clean, ?_⟩
  rw [unread_of_nonempty h, ← hunread, List.map_cons]
  exact (runInstrs_cons (exec_rxstep_drained hr)).trans hu.received

/-- A run whose next step is DRAIN's iteration, with no other word left, ends the DRAIN after one step more
than there are unread entries. -/
theorem run_drain {n : Nat} (hstep : step t = exec .drain s) (hocc : s.occupancy = n) (hf : s.fault = none)
    (hsched : s.schedule = []) (hcount : s.bitsReceived.toNat + n < 2 ^ 32) :
    ∃ u : State, Host.Core.run Sys2Proof.core (n + 1) t = .next u ∧ DrainEnds s u := by
  induction n generalizing s t with
  | zero =>
    have hempty : s.head = s.tail := (occupancy_eq_zero_iff s).mp hocc
    exact ⟨_, run_of_next 0 (hstep.trans (exec_drain_of_empty hempty)),
      drainEnds_of_empty hempty hsched hf⟩
  | succ n ih =>
    have hne : s.head ≠ s.tail := mt (occupancy_eq_zero_iff s).mpr (by omega)
    have hw : ¬s.Wraps s.oldest := fun ⟨_, hend, _⟩ => by omega
    obtain ⟨r, hr, hdrain⟩ := exec_drain_of_not_wraps hne hw
    have hrocc : r.occupancy = n := by
      have hadvance := occupancy_advanceTail hne
      have hkept : r.occupancy = s.advanceTail.occupancy := by rw [receive_frame hr]; rfl
      omega
    have hrsched : r.schedule = [] := by rw [receive_frame hr]; exact hsched
    have hrfault : r.fault = none := by rw [receive_frame hr]; exact hf
    have hrcount : r.bitsReceived.toNat ≤ s.bitsReceived.toNat + 1 :=
      receive_count_le (s := s.advanceTail) hr
    obtain ⟨goesOn, -⟩ := drainGoesOn { r with draining := true } hrfault rfl
    obtain ⟨u, hrun, hends⟩ := ih (goesOn hrsched) hrocc hrfault hrsched (by dsimp only; omega)
    exact ⟨u, (run_of_next (n + 1) (hstep.trans hdrain)).trans hrun, drainEnds_of_took hne hr hends⟩

end

/-- Settles O37: the DRAIN's word is decoded, and from its first iteration on the run is `run_drain`'s. -/
theorem drainEmptiesRing : Obligations.DrainEmptiesRing := by
  intro s hf hsched hd hcount
  have hwait : ¬s.mustWait (encode .drain) = true := by rw [State.mustWait, hd]; exact Bool.false_ne_true
  have hstep : step s = exec .drain { s with schedule := [] } := by
    rw [step, nextTurn_of_clean hf, hsched]
    dsimp only
    rw [if_neg hwait, decodeOfEncode .drain]
  have hdrained : ({ s with schedule := [] } : State).drained = { s with schedule := [], tail := s.head } := by
    rw [State.drained, ← hd]
  obtain ⟨t, hrun, hends⟩ := run_drain hstep rfl hf rfl hcount
  exact ⟨t, hrun, hends.empty, hends.usedUp, hends.clean, hdrained ▸ hends.received⟩

end Sys2Proof.Machine

/-!
### One SEND and one TICK (spec/42_transmit.md R200 to R206)

SEND on an idle block writes the sequence entry by entry; a tick counts down, loads the entry at `pos`, or stops.
While a message is played back, the entry at `pos` is the message's own, so only the sentinel can stop it.
-/

namespace Sys2Proof.Machine

section

variable {s t : State} {c : PayloadClass} {value : BitVec 32} {w : OpWord}

theorem exec_tick (hon : s.timerEnabled = true) : exec .tick s = .next s.playTick := if_pos hon

theorem exec_sendInstr (c : PayloadClass) (value : BitVec 32) (s : State) :
    exec (sendInstr c value) s = .next (s.send c value (encode (sendInstr c value))) := by
  cases c <;> rfl

/-- SEND on an idle block (R200). -/
theorem send_of_idle (hoff : s.timerEnabled = false) : s.send c value w =
    { s with seq := writeEntries s.seq 0 (playback c value), timerEnabled := true } :=
  if_neg (by rw [hoff]; exact Bool.false_ne_true)

/-- SEND writes none of the player's registers (R200). -/
theorem send_keeps_player (c : PayloadClass) (value : BitVec 32) (w : OpWord) (s : State) :
    (s.send c value w).pos = s.pos ∧ (s.send c value w).remaining = s.remaining ∧
      (s.send c value w).outActive = s.outActive := by
  rw [send_frame (s := s) rfl]
  exact ⟨rfl, rfl, rfl⟩

/-- SEND on an idle block begins the playback of its message (R51, R205). -/
theorem playing_send (hidle : s.IdleInv) (hoff : s.timerEnabled = false) :
    (s.send c value w).Playing c value := by
  obtain ⟨hpos, hrem, hout⟩ := hidle hoff
  obtain ⟨epos, erem, eout⟩ := send_keeps_player c value w s
  rw [hpos] at epos
  have hN := dataBits_le c
  refine ⟨fun j hj => ?_, ?_, fun _ => erem.trans hrem, fun hne => absurd epos hne, ?_⟩
  · rw [seqEntry_send hoff (by omega), if_pos hj]
  · rw [epos]; exact Nat.zero_le _
  · rw [eout, hout, epos]; rfl

/-- The entry that the next load reads is the message's own (R205). -/
theorem State.Playing.entryAt_pos (hs : s.Playing c value) :
    entryAt s.seq s.pos = playbackEntry c value s.pos.toNat := by
  rw [← hs.holds s.pos.toNat (Nat.lt_succ_of_le hs.within), State.seqEntry, BitVec.ofNat_toNat,
    BitVec.setWidth_eq]

/-- Before the load of a count `pos` has not reached the sentinel (R203, R205). -/
theorem State.Playing.pos_lt (hs : s.Playing c value) (hentry : entryAt s.seq s.pos ≠ 0) :
    s.pos.toNat < dataBits c + 3 := by
  refine Nat.lt_of_le_of_ne hs.within fun hlast => hentry ?_
  rw [hs.entryAt_pos, hlast, playbackEntry_sentinel]

theorem playing_countDown (hs : s.Playing c value) (hrem : 1 < s.remaining) :
    ({ s with remaining := s.remaining - 1 } : State).Playing c value := by
  refine ⟨hs.holds, hs.within, fun hpos => ?_, fun hpos => ?_, hs.level⟩
  · have hzero : s.remaining = 0 := hs.fresh hpos
    rw [hzero] at hrem
    exact absurd hrem (by decide)
  · obtain ⟨-, hle⟩ := hs.counting hpos
    dsimp only
    generalize playbackEntry c value (s.pos.toNat - 1) = e at hle ⊢
    constructor <;> bv_omega

theorem playing_load (hs : s.Playing c value) (hentry : entryAt s.seq s.pos ≠ 0) {es : List Event} :
    ({ s with remaining := entryAt s.seq s.pos, pos := s.pos + 1, outActive := !s.outActive,
              trace := es } : State).Playing c value := by
  have hlt := hs.pos_lt hentry
  have hN := dataBits_le c
  have hnext : (s.pos + 1).toNat = s.pos.toNat + 1 := by bv_omega
  refine ⟨hs.holds, ?_, fun hpos => ?_, fun _ => ?_, ?_⟩
  · dsimp only; omega
  · dsimp only at hpos
    rw [hpos] at hnext
    cases hnext
  · dsimp only
    rw [hnext, Nat.add_sub_cancel, hs.entryAt_pos]
    exact ⟨playbackEntry_pos c value hlt, BitVec.le_refl _⟩
  · dsimp only
    rw [hs.level, hnext, ← decide_not, decide_eq_decide]
    omega

/-- A tick that leaves the timer enabled goes on with the same message (R203). -/
theorem playing_playTick (hs : s.Playing c value) (hon : s.playTick.timerEnabled = true) :
    s.playTick.Playing c value := by
  obtain ⟨hrem, e⟩ | ⟨-, hentry, e⟩ | ⟨-, -, e⟩ := playTick_cases s
  · rw [e]; exact playing_countDown hs hrem
  · rw [e]; exact playing_load hs hentry
  · rw [e] at hon; cases hon

/-- The invariant reads five registers only. -/
theorem transmitInv_of_eq (hs : s.TransmitInv) (hseq : t.seq = s.seq) (hpos : t.pos = s.pos)
    (hrem : t.remaining = s.remaining) (hout : t.outActive = s.outActive)
    (htimer : t.timerEnabled = s.timerEnabled) : t.TransmitInv := by
  obtain ⟨hidle, hbusy⟩ := hs
  refine ⟨fun hoff => ?_, fun hon => ?_⟩
  · rw [hpos, hrem, hout]
    exact hidle (htimer ▸ hoff)
  · obtain ⟨c, value, hplay⟩ := hbusy (htimer ▸ hon)
    exact ⟨c, value, playing_of_eq hplay hseq hpos hrem hout⟩

/-- Operations other than SEND, TICK and RESET write none of those registers (R53). -/
theorem transmitInv_of_not_writer {i : Instr} (hs : s.TransmitInv) (h : exec i s = .next t)
    (hreset : i ≠ .reset) (hsend : i.operation ≠ .send) (htick : i.operation ≠ .tick) : t.TransmitInv := by
  obtain ⟨-, -, -, hseq, hplayer, htimer⟩ := stateHasItsWriters i s t h hreset
  obtain ⟨epos, erem, eout⟩ : t.pos = s.pos ∧ t.remaining = s.remaining ∧ t.outActive = s.outActive := by
    simpa only [not_or, not_not] using mt hplayer htick
  refine transmitInv_of_eq hs (not_not.mp (mt hseq hsend)) epos erem eout ?_
  by_contra hne
  obtain ⟨hop, -⟩ | ⟨hop, -⟩ := htimer hne
  · exact hsend hop
  · exact htick hop

/-- SEND begins a playback on an idle block, and leaves the one in progress on a busy one (R200, R263). -/
theorem send_plays (hs : s.TransmitInv) (c : PayloadClass) (value : BitVec 32) (w : OpWord) :
    ∃ c' value', (s.send c value w).Playing c' value' := by
  obtain ⟨hidle, hbusy⟩ := hs
  obtain ⟨hon, e⟩ | ⟨hoff, -⟩ := send_cases c value w s
  · obtain ⟨c', value', hplay⟩ := hbusy hon
    exact ⟨c', value', by rw [e]; exact playing_of_eq hplay rfl rfl rfl rfl⟩
  · exact ⟨c, value, playing_send hidle hoff⟩

theorem exec_keeps_transmitInv {i : Instr} (hs : s.TransmitInv) (h : exec i s = .next t) :
    t.TransmitInv := by
  have hidle : t.IdleInv := exec_keeps_idleInv hs.1 h
  cases i with
  | send2 value | send4 value => cases h; exact ⟨hidle, fun _ => send_plays hs ..⟩
  | tick =>
    have hon := timerEnabled_of_execTick h
    obtain ⟨c, value, hplay⟩ := hs.2 hon
    rw [exec_tick hon] at h
    cases h
    exact ⟨hidle, fun hon => ⟨c, value, playing_playTick hplay hon⟩⟩
  | reset => exact ⟨hidle, fun hon => by rw [execReset_frame h] at hon; cases hon⟩
  | edge | pop | rxstep | poll | drain | status =>
    exact transmitInv_of_not_writer hs h (by simp) (by simp [Instr.operation]) (by simp [Instr.operation])

end

/-- Settles O49: the invariant reads neither the schedule nor the refusals, and every operation keeps it. -/
theorem stepsKeepTransmitInvariant : Obligations.StepsKeepTransmitInvariant := fun _ _ hs h =>
  step_keeps (P := State.TransmitInv)
    (fun _ _ hp => transmitInv_of_eq hp rfl rfl rfl rfl rfl)
    (fun _ _ hp => transmitInv_of_eq hp rfl rfl rfl rfl rfl)
    (fun _ _ _ hp hexec => exec_keeps_transmitInv hp hexec) hs h

/-- Settles O47: TICK's meaning tests the enable bit. -/
theorem stoppedTimerHasNoTick : Obligations.StoppedTimerHasNoTick := fun _ hoff =>
  if_neg (by rw [hoff]; exact Bool.false_ne_true)

/-- Settles O46: the three cases of a tick exclude one another. -/
theorem tickPlaysSequence : Obligations.TickPlaysSequence := by
  intro s hon
  rw [exec_tick hon]
  obtain ⟨hrem, e⟩ | ⟨hrem, hentry, e⟩ | ⟨hrem, hentry, e⟩ := playTick_cases s <;> rw [e]
  · have hgt : ¬s.remaining.toNat ≤ 1 := Nat.not_le.mpr hrem
    exact ⟨fun _ => rfl, fun h => absurd h hgt, fun h => absurd h hgt⟩
  · have hle : ¬1 < s.remaining.toNat := Nat.not_lt.mpr hrem
    exact ⟨fun h => absurd h hle, fun _ _ => rfl, fun _ h => absurd h hentry⟩
  · have hle : ¬1 < s.remaining.toNat := Nat.not_lt.mpr hrem
    exact ⟨fun h => absurd h hle, fun _ h => absurd hentry h, fun _ _ => rfl⟩

/-- Settles O43: the entries are those of the playback sequence, whose checksum is the parity of the ones. -/
theorem sendWritesSequence : Obligations.SendWritesSequence := by
  intro c value s hoff
  have hN := dataBits_le c
  refine ⟨_, exec_sendInstr c value s, ?_, ?_, ?_, fun j hj => ?_, ?_, ?_, fun j hj hlt => ?_⟩
  · rw [send_of_idle hoff]
  · rw [seqEntry_send hoff (by omega), if_pos (by omega), playbackEntry_start]
  · rw [seqEntry_send hoff (by omega), if_pos (by omega), playbackEntry_length]
    cases c <;> rfl
  · rw [seqEntry_send hoff (by omega), if_pos (by omega), playbackEntry_data c value hj]
    rfl
  · rw [seqEntry_send hoff (by omega), if_pos (by omega), playbackEntry_checksum, checksumBit_eq]
    simp only [symbolTicks, decide_eq_true_eq]
  · rw [seqEntry_send hoff (by omega), if_pos (by omega), playbackEntry_sentinel]
  · rw [seqEntry_send hoff hlt, if_neg (by omega)]

section

variable {v u : BitVec 32} {n : Nat}

/-- The data entries read the bits below `n` only (R200). -/
theorem dataEntries_congr (h : ∀ k, k < n → v.getLsbD k = u.getLsbD k) :
    dataEntries v n = dataEntries u n := by
  induction n with
  | zero => rfl
  | succ n ih => rw [dataEntries, dataEntries, h n n.lt_succ_self, ih fun k hk => h k (hk.trans n.lt_succ_self)]

/-- The parity reads the bits below `n` only (R202). -/
theorem foldParity_congr (p : Bool) (h : ∀ k, k < n → v.getLsbD k = u.getLsbD k) :
    foldParity v p n = foldParity u p n := by
  induction n generalizing p with
  | zero => rfl
  | succ n ih =>
    rw [foldParity, foldParity, h n n.lt_succ_self, ih _ fun k hk => h k (hk.trans n.lt_succ_self)]

/-- The sequence reads the payload's bits only (R200, decision D13). -/
theorem playback_congr {c : PayloadClass} (h : v.toNat % 2 ^ dataBits c = u.toNat % 2 ^ dataBits c) :
    playback c v = playback c u := by
  have hbits : ∀ k, k < dataBits c → v.getLsbD k = u.getLsbD k := fun k hk => by
    have hmod := congrArg (Nat.testBit · k) h
    simp only [Nat.testBit_mod_two_pow, hk, decide_true, Bool.true_and] at hmod
    exact hmod
  rw [playback, playback, checksumBit, checksumBit, dataEntries_congr hbits, foldParity_congr _ hbits]

end

/-- Settles O45: the two values have one sequence, and nothing else of the value is kept. -/
theorem highValueBitsAreNotSent : Obligations.HighValueBitsAreNotSent := by
  intro v u s hoff h
  have hsame : playback .two v = playback .two u := playback_congr h
  rw [exec, execSend2, send_of_idle hoff, hsame, exec, execSend2, send_of_idle hoff]

end Sys2Proof.Machine

/-!
### A whole transmission (spec/42_transmit.md R206, R207)

Tick by tick the block is in a state `s.playedTo k rem`: `k` entries loaded, `rem` left of the last. A tick there
counts `rem` down, loads entry `k`, or meets the sentinel, so the load of entry `k` falls on tick `t_k`.
-/

namespace Sys2Proof.Machine

/-- The block armed as `s`, with `k` entries loaded and `rem` ticks left of the last one (R206). -/
def State.playedTo (k : Nat) (rem : Entry) (s : State) : State :=
  { s with pos := BitVec.ofNat 6 k, remaining := rem, outActive := decide (k % 2 = 1),
           trace := s.trace ++ alternating k }

/-- The timer is armed with the sequence of a message, and nothing of it is loaded (R51, R200). -/
structure State.Armed (c : PayloadClass) (value : BitVec 32) (s : State) : Prop where
  playing : s.Playing c value
  enabled : s.timerEnabled = true
  unloaded : s.pos = 0

theorem alternating_succ (n : Nat) :
    alternating (n + 1) = alternating n ++ [.out (decide (n % 2 = 0))] := by
  simp [alternating, List.range_succ]

/-- The line is active exactly when an odd number of entries is loaded, and the next load inverts that. -/
theorem not_level (k : Nat) : (!decide (k % 2 = 1)) = decide (k % 2 = 0) := by
  rw [← decide_not, decide_eq_decide]
  omega

theorem level_succ (k : Nat) : decide ((k + 1) % 2 = 1) = decide (k % 2 = 0) := by
  rw [decide_eq_decide]
  omega

section

variable {s t u : State} {c : PayloadClass} {value : BitVec 32} {w : OpWord}

theorem runTicks_succ {n : Nat} (h : runTicks n s = .next t) (htick : exec .tick t = .next u) :
    runTicks (n + 1) s = .next u :=
  (runTicks_add h).trans (runInstrs_cons htick)

/-- SEND arms an idle block (R200). -/
theorem armed_send (hidle : s.IdleInv) (hoff : s.timerEnabled = false) : (s.send c value w).Armed c value := by
  obtain ⟨hpos, -, -⟩ := hidle hoff
  obtain ⟨epos, -, -⟩ := send_keeps_player c value w s
  exact ⟨playing_send hidle hoff, by rw [send_of_idle hoff], epos.trans hpos⟩

section

variable (hs : s.Armed c value)

include hs

theorem State.Armed.uncounted : s.remaining = 0 := hs.playing.fresh hs.unloaded

theorem State.Armed.inactive : s.outActive = false := by
  rw [hs.playing.level, hs.unloaded]
  rfl

/-- Before the first tick nothing is loaded, counted or emitted. -/
theorem playedTo_zero : s.playedTo 0 0 = s := by
  have hpos : BitVec.ofNat 6 0 = s.pos := hs.unloaded.symm
  have hout : decide (0 % 2 = 1) = s.outActive := hs.inactive.symm
  have htrace : s.trace ++ alternating 0 = s.trace := List.append_nil _
  rw [State.playedTo, hpos, hout, htrace, ← hs.uncounted]

theorem entryAt_playedTo {k : Nat} (hk : k < dataBits c + 4) (rem : Entry) :
    entryAt (s.playedTo k rem).seq (s.playedTo k rem).pos = playbackEntry c value k :=
  hs.playing.holds k hk

theorem exec_tick_counts {rem : Entry} (hrem : 1 < rem.toNat) (k : Nat) :
    exec .tick (s.playedTo k rem) = .next (s.playedTo k (rem - 1)) := by
  obtain ⟨hcount, -, -⟩ := tickPlaysSequence (s.playedTo k rem) hs.enabled
  exact hcount hrem

theorem exec_tick_loads {rem : Entry} (hrem : rem.toNat ≤ 1) {k : Nat} (hk : k < dataBits c + 3) :
    exec .tick (s.playedTo k rem) = .next (s.playedTo (k + 1) (playbackEntry c value k)) := by
  have hentry := entryAt_playedTo hs (Nat.lt_succ_of_lt hk) rem
  have hne : entryAt (s.playedTo k rem).seq (s.playedTo k rem).pos ≠ 0 := by
    have hpos := playbackEntry_pos c value hk
    rw [hentry]
    bv_omega
  have hnext : (s.playedTo k rem).pos + 1 = BitVec.ofNat 6 (k + 1) := BitVec.ofNat_add_ofNat ..
  obtain ⟨-, hload, -⟩ := tickPlaysSequence (s.playedTo k rem) hs.enabled
  rw [hload hrem hne, hentry, hnext]
  dsimp only [State.playedTo]
  rw [not_level, level_succ, alternating_succ, List.append_assoc]

theorem exec_tick_stops {rem : Entry} (hrem : rem.toNat ≤ 1) :
    exec .tick (s.playedTo (dataBits c + 3) rem) = .next { s with
      timerEnabled := false, trace := s.trace ++ alternating (dataBits c + 4) } := by
  have hzero := (entryAt_playedTo hs (Nat.lt_succ_self _) rem).trans (playbackEntry_sentinel c value)
  have hodd : (dataBits c + 3) % 2 = 1 := by cases c <;> rfl
  have hactive : (s.playedTo (dataBits c + 3) rem).outActive = true := decide_eq_true hodd
  have hlast : alternating (dataBits c + 4) = alternating (dataBits c + 3) ++ [.out false] := by
    rw [alternating_succ, ← not_level, hodd]
    rfl
  obtain ⟨-, -, hstop⟩ := tickPlaysSequence (s.playedTo (dataBits c + 3) rem) hs.enabled
  rw [hstop hrem hzero, if_pos hactive, hlast, ← List.append_assoc, hs.unloaded, hs.uncounted, hs.inactive]
  rfl

/-- The count of an entry (R206): `r` ticks after its load `r` of its ticks are over. -/
theorem runTicks_count {e : Entry} {r : Nat} (hr : r < e.toNat) (k : Nat) :
    runTicks r (s.playedTo k e) = .next (s.playedTo k (e - BitVec.ofNat 8 r)) := by
  induction r with
  | zero =>
    have hall : e - BitVec.ofNat 8 0 = e := BitVec.sub_zero e
    rw [hall]
    rfl
  | succ r ih =>
    have hleft : e - BitVec.ofNat 8 r - 1 = e - BitVec.ofNat 8 (r + 1) := by bv_omega
    rw [← hleft]
    exact runTicks_succ (ih (by omega)) (exec_tick_counts hs (by bv_omega) k)

/-- Just before tick `t_k` the entries before `k` are loaded, and the last of them has at most 1 left (R206). -/
theorem runTicks_beforeLoad {k : Nat} (hk : k ≤ dataBits c + 3) :
    ∃ n rem, loadTick c value k = n + 1 ∧ rem.toNat ≤ 1 ∧ runTicks n s = .next (s.playedTo k rem) := by
  induction k with
  | zero => exact ⟨0, 0, rfl, Nat.zero_le 1, by rw [playedTo_zero hs]; rfl⟩
  | succ k ih =>
    obtain ⟨n, rem, htime, hrem, hrun⟩ := ih (by omega)
    have hpos : 0 < (playbackEntry c value k).toNat := playbackEntry_pos c value hk
    have hload := runTicks_succ hrun (exec_tick_loads hs hrem hk)
    have hcount := runTicks_count hs (Nat.sub_lt hpos Nat.one_pos) (k + 1)
    refine ⟨n + 1 + ((playbackEntry c value k).toNat - 1), _, ?_, ?_, (runTicks_add hload).trans hcount⟩
    · rw [loadTick, htime]
      omega
    · generalize playbackEntry c value k = e at hpos ⊢
      bv_omega

/-- Tick `t_j` loads entry `j` (R206). -/
theorem runTicks_loadTick {j : Nat} (hj : j < dataBits c + 3) :
    runTicks (loadTick c value j) s = .next (s.playedTo (j + 1) (playbackEntry c value j)) := by
  obtain ⟨n, rem, htime, hrem, hrun⟩ := runTicks_beforeLoad hs hj.le
  rw [htime]
  exact runTicks_succ hrun (exec_tick_loads hs hrem hj)

/-- Tick `t_K` meets the sentinel (R206). -/
theorem runTicks_sentinel :
    runTicks (loadTick c value (dataBits c + 3)) s = .next { s with
      timerEnabled := false, trace := s.trace ++ alternating (dataBits c + 4) } := by
  obtain ⟨n, rem, htime, hrem, hrun⟩ := runTicks_beforeLoad hs le_rfl
  rw [htime]
  exact runTicks_succ hrun (exec_tick_stops hs hrem)

end

end

/-- Settles O51: SEND arms the block, tick `t_j` loads entry `j`, and the ticks after it count. -/
theorem transmissionEdgeTiming : Obligations.TransmissionEdgeTiming := by
  intro c value s hidle hoff
  have hs := armed_send (c := c) (value := value) (w := encode (sendInstr c value)) hidle hoff
  have htrace : (s.send c value (encode (sendInstr c value))).trace = s.trace := by rw [send_of_idle hoff]
  refine ⟨_, exec_sendInstr c value s, fun j r hj hr => ?_, ?_⟩
  · rw [runTicks_add (runTicks_loadTick hs hj), runTicks_count hs hr, State.playedTo, level_succ, htrace]
  · rw [runTicks_sentinel hs, htrace]

/-- The bits of a message in the order sent: length bit, data bits, checksum bit (R200, R201). -/
def messageBits (c : PayloadClass) (value : BitVec 32) : List Bool :=
  lengthBitOf c :: (bitsDown value (dataBits c) ++ [checksumBit c value])

theorem dataEntries_eq_map (value : BitVec 32) (n : Nat) :
    dataEntries value n = (bitsDown value n).map symbolTicks := by
  induction n with
  | zero => rfl
  | succ n ih => rw [dataEntries, bitsDown, List.map_cons, ih]

theorem playback_eq (c : PayloadClass) (value : BitVec 32) :
    playback c value = (startTicks :: (messageBits c value).map symbolTicks) ++ [sentinel] := by
  simp [playback, messageBits, dataEntries_eq_map]

/-- The entries before the sentinel are the start marker's and those of the message's bits (R201). -/
theorem map_playbackEntry (c : PayloadClass) (value : BitVec 32) :
    (List.range (dataBits c + 3)).map (playbackEntry c value) =
      startTicks :: (messageBits c value).map symbolTicks := by
  have hlength : (startTicks :: (messageBits c value).map symbolTicks).length = dataBits c + 3 := by
    simp [messageBits]
  refine List.ext_getElem (by rw [hlength]; simp) fun j hj hj' => ?_
  rw [List.getElem_map, List.getElem_range, playbackEntry, playback_eq, List.getD_eq_getElem?_getD,
    List.getElem?_append_left hj', List.getElem?_eq_getElem hj', Option.getD_some]

/-- The load ticks are the running sums of the entries (R206). -/
theorem loadTick_eq_sum (c : PayloadClass) (value : BitVec 32) (j : Nat) :
    loadTick c value j = 1 + (((List.range j).map (playbackEntry c value)).map BitVec.toNat).sum := by
  induction j with
  | zero => rfl
  | succ j ih => rw [loadTick, ih, List.range_succ]; simp [Nat.add_assoc]

theorem symbolTicks_toNat (b : Bool) : (symbolTicks b).toNat = 2 + 2 * b.toNat := by cases b <;> rfl

/-- The ticks of the data bits: 2 each, and 2 more for each 1 (R207). -/
theorem sum_bitsDown (value : BitVec 32) (n : Nat) :
    ((bitsDown value n).map fun b => (symbolTicks b).toNat).sum = 2 * n + 2 * popcountBelow value n := by
  induction n with
  | zero => rfl
  | succ n ih =>
    rw [bitsDown, List.map_cons, List.sum_cons, ih, popcountBelow, symbolTicks_toNat]
    cases value.getLsbD n <;> simp <;> omega

/-- The sentinel is loaded after 1 + S ticks (R206, R207). -/
theorem loadTick_sentinel (c : PayloadClass) (value : BitVec 32) :
    loadTick c value (dataBits c + 3) = 1 + playbackTicks c value := by
  have hstart : startTicks.toNat = 6 := rfl
  have hlen : (symbolTicks (lengthBitOf c)).toNat = if c = .two then 2 else 4 := by cases c <;> rfl
  rw [loadTick_eq_sum, map_playbackEntry, messageBits, playbackTicks]
  simp only [List.map_cons, List.map_append, List.map_nil, List.map_map, Function.comp_def, List.sum_cons,
    List.sum_append, List.sum_nil, sum_bitsDown, hstart, hlen, symbolTicks_toNat (checksumBit c value)]
  omega

/-- A run that has a next state had one after its first part, and went on from there. -/
theorem runInstrs_append_inv {is js : List Instr} {s t : State} (h : runInstrs (is ++ js) s = .next t) :
    ∃ u, runInstrs is s = .next u ∧ runInstrs js u = .next t := by
  induction is generalizing s with
  | nil => exact ⟨s, rfl, h⟩
  | cons i is ih =>
    rw [List.cons_append, runInstrs] at h
    rw [runInstrs]
    cases e : exec i s with
    | next u => rw [e] at h; exact ih h
    | fault r => rw [e] at h; cases h
    | refused r => rw [e] at h; cases h

/-- Before the last of its ticks a run of ticks has the timer enabled (R204). -/
theorem timerEnabled_before {n m : Nat} {s t : State} (h : runTicks (n + (m + 1)) s = .next t) :
    ∃ u, runTicks n s = .next u ∧ u.timerEnabled = true := by
  rw [runTicks, ← List.replicate_append_replicate] at h
  obtain ⟨u, hrun, hrest⟩ := runInstrs_append_inv h
  refine ⟨u, hrun, ?_⟩
  by_contra hne
  rw [List.replicate_succ, runInstrs, stoppedTimerHasNoTick u (Bool.eq_false_iff.mpr hne)] at hrest
  cases hrest

/-- Settles O52: the sentinel's tick is tick 1 + S, and before it the timer is enabled, since it has that tick. -/
theorem transmissionDuration : Obligations.TransmissionDuration := by
  intro c value s hidle hoff p sum
  have hsum : 1 + sum = loadTick c value (dataBits c + 3) := by
    have hp : p = (checksumBit c value).toNat := by
      rw [checksumBit_eq, Bool.toNat, Bool.cond_decide]
    rw [loadTick_sentinel, playbackTicks, ← hp]
    omega
  have hs := armed_send (c := c) (value := value) (w := encode (sendInstr c value)) hidle hoff
  have hend := runTicks_sentinel hs
  rw [← hsum] at hend
  refine ⟨_, exec_sendInstr c value s, ⟨_, hend, rfl, fun _ => ⟨hs.unloaded, hs.uncounted, hs.inactive⟩⟩,
    fun n hn => ?_⟩
  obtain ⟨m, hm⟩ : ∃ m, 1 + sum = n + (m + 1) := ⟨1 + sum - n - 1, by omega⟩
  exact timerEnabled_before (hm ▸ hend)

end Sys2Proof.Machine

/-!
### Loopback (spec/42_transmit.md R208)

The edges of a transmission leave one captured interval per entry unread, each in the band of its symbol. POLL feeds
them to the receiver as RXSTEP would: the two differ in registers that the receiver does not read.
-/

namespace Sys2Proof.Machine

/-- The timestamp of the OUT event that loads entry `j`, with a tick every `period` microseconds (R208). -/
def outTime (c : PayloadClass) (value : BitVec 32) (base period j : Nat) : Timestamp :=
  BitVec.ofNat 32 (base + loadTick c value j * period)

/-- The ring entry that EDGE captures of an interval of `e` ticks (R130, R132). -/
def captured (period : Nat) (e : Entry) : Entry := BitVec.ofNat 8 (intervalUnits (e.toNat * period))

section

variable {s : State} {c : PayloadClass} {value : BitVec 32} {base period : Nat} {e : Entry}

/-- The tick period in R93's range is one that keeps the symbols in their bands. -/
theorem tickPeriodInRange_iff (p : Params) : TickPeriodInRange p ↔ 850 ≤ p.tTick ∧ p.tTick ≤ 1166 := by
  unfold TickPeriodInRange
  omega

/-- A symbol at a period in range is between 1.7 and 7 ms long (R93). -/
theorem symbol_duration (hperiod : 850 ≤ period ∧ period ≤ 1166) (he : e = 2 ∨ e = 4 ∨ e = 6) :
    1700 ≤ e.toNat * period ∧ e.toNat * period < 7000 := by
  have hticks : e.toNat = 2 ∨ e.toNat = 4 ∨ e.toNat = 6 := by bv_omega
  obtain h | h | h := hticks <;> rw [h] <;> omega

theorem accept_symbol (mode : WindowMode) {d : Nat} (hlow : 1700 ≤ d) (hhigh : d < 7000) :
    accept mode d (intervalUnits d) = true := by
  unfold intervalUnits
  cases mode
  · exact decide_eq_true (by omega)
  · exact decide_eq_true (by omega)

/-- An interval of 20 ms or more is dropped (R131). -/
theorem not_accept_gap (mode : WindowMode) {d : Nat} (h : 20000 ≤ d) :
    ¬accept mode d (intervalUnits d) = true := by
  unfold intervalUnits
  cases mode
  · exact Bool.eq_false_iff.mp (decide_eq_false (by omega))
  · exact Bool.eq_false_iff.mp (decide_eq_false (by omega))

/-- Consecutive OUT events are an entry's ticks apart (R206). -/
theorem elapsed_outTime (j : Nat) (h : (playbackEntry c value j).toNat * period < 2 ^ 32) :
    elapsed (outTime c value base period (j + 1)) (outTime c value base period j) =
      (playbackEntry c value j).toNat * period := by
  rw [outTime, outTime, loadTick, Nat.add_mul, ← Nat.add_assoc, elapsed]
  generalize (playbackEntry c value j).toNat * period = d at h
  bv_omega

/-- An accepted edge adds its interval behind the unread entries of a ring with room (R70, R135). -/
theorem exec_edge_captures {ts : Timestamp} (haccept : s.acceptsEdge ts = true) (hocc : s.occupancy < 63) :
    ∃ t, exec (.edge ts) s = .next t ∧ t.prevTs = ts ∧ t.trace = s.trace ∧
      t.unread = s.unread ++ [BitVec.ofNat 8 (intervalUnits (elapsed ts s.prevTs))] :=
  ⟨_, exec_edge_of_accepted haccept, rfl, rfl, pushGoesBehindUnread { s with prevTs := ts } _ hocc⟩

/-- The edges up to OUT event `k` leave the first `k` entries' intervals unread, in order (R208). -/
theorem runInstrs_outEdges (hperiod : 850 ≤ period ∧ period ≤ 1166) (hempty : s.head = s.tail)
    (hgap : 20000 ≤ elapsed (outTime c value base period 0) s.prevTs) {k : Nat} (hk : k ≤ dataBits c + 3) :
    ∃ t, runInstrs ((List.range (k + 1)).map fun j => .edge (outTime c value base period j)) s = .next t ∧
      t.prevTs = outTime c value base period k ∧ t.trace = s.trace ∧
      t.unread = (List.range k).map fun j => captured period (playbackEntry c value j) := by
  induction k with
  | zero =>
    have hdrop := exec_edge_of_not_accepted (not_accept_gap s.params.captureWindowMode hgap)
    exact ⟨_, runInstrs_cons hdrop, rfl, rfl, unread_eq_nil ((occupancy_eq_zero_iff s).mpr hempty)⟩
  | succ k ih =>
    obtain ⟨t, hrun, hprev, htrace, hunread⟩ := ih (by omega)
    obtain ⟨hlow, hhigh⟩ := symbol_duration hperiod (playbackEntry_symbol c value hk)
    have helapsed : elapsed (outTime c value base period (k + 1)) t.prevTs =
        (playbackEntry c value k).toNat * period := by
      rw [hprev]
      exact elapsed_outTime k (by omega)
    have haccept : t.acceptsEdge (outTime c value base period (k + 1)) = true := by
      rw [State.acceptsEdge, helapsed]
      exact accept_symbol _ hlow hhigh
    have hocc : t.occupancy < 63 := by
      have := dataBits_le c
      rw [← unread_length, hunread, List.length_map, List.length_range]
      omega
    obtain ⟨t', hedge, hprev', htrace', hunread'⟩ := exec_edge_captures haccept hocc
    refine ⟨t', ?_, hprev', htrace'.trans htrace, ?_⟩
    · rw [List.range_succ, List.map_append, runInstrs_append hrun]
      exact runInstrs_cons hedge
    · rw [hunread', helapsed, hunread, List.range_succ, List.map_append]
      rfl

/-- The interval a pop takes is the one captured: a symbol's fits its entry (R133). -/
theorem captured_toNat (hperiod : 850 ≤ period ∧ period ≤ 1166) (he : e = 2 ∨ e = 4 ∨ e = 6) :
    ((captured period e).zeroExtend 32).toNat = intervalUnits (e.toNat * period) := by
  obtain ⟨-, hhigh⟩ := symbol_duration hperiod he
  have hkept : ((captured period e).zeroExtend 32).toNat = (captured period e).toNat :=
    BitVec.toNat_setWidth_of_le (by decide)
  rw [hkept, captured, BitVec.toNat_ofNat, intervalUnits]
  omega

theorem captured_start (hperiod : 850 ≤ period ∧ period ≤ 1166) :
    band ((captured period startTicks).zeroExtend 32).toNat = .start := by
  obtain ⟨hstart, -, -⟩ := (roundTripTickPeriods period).mpr hperiod
  exact (congrArg band (captured_toNat hperiod (.inr (.inr rfl)))).trans hstart

theorem captured_carriesBit (hperiod : 850 ≤ period ∧ period ≤ 1166) (b : Bool) :
    CarriesBit ((captured period (symbolTicks b)).zeroExtend 32) b := by
  obtain ⟨-, hzero, hone⟩ := (roundTripTickPeriods period).mpr hperiod
  cases b
  · exact (congrArg band (captured_toNat hperiod (.inl rfl))).trans hzero
  · exact (congrArg band (captured_toNat hperiod (.inr (.inl rfl)))).trans hone

end

/-- The block but for the registers that POLL writes and RXSTEP does not, or not alike. -/
def State.pollView (s : State) : State := { s with tail := 0, fault := none, returned := none }

theorem bandBit_pollView (b : Bool) (s : State) :
    s.pollView.bandBit b = (s.bandBit b).map State.pollView := by
  change ({ s with tail := 0, fault := none, returned := none } : State).bandBit b = _
  unfold State.bandBit State.checkBit
  split_ifs <;> rfl

/-- The receiver reads none of those registers (R161). -/
theorem receive_pollView (v : Interval) (s : State) :
    s.pollView.receive v = (s.receive v).map State.pollView := by
  obtain ⟨h, e⟩ | ⟨h, e⟩ | ⟨b, h, e⟩ := receive_cases v s
  · rw [e, receive_of_start h]; rfl
  · rw [e, receive_of_other h]; rfl
  · rw [e, receive_of_bit h, bandBit_pollView]

section

variable {s u t : State}

theorem exec_rxstep_of_raise {v : Interval} {code : FaultCode} (h : s.receive v = .error code) :
    exec (.rxstep v) s = .next (s.raise code (encode (.rxstep v))) := by
  simp [exec, execRxstep, h]

/-- POLL on the block is RXSTEP with the interval it takes, on any block that the receiver cannot tell from it
(R169). -/
theorem exec_poll_of_rxstep (hne : s.head ≠ s.tail) (hview : s.pollView = u.pollView) :
    ∃ s' u', exec .poll s = .next s' ∧ exec (.rxstep s.oldest) u = .next u' ∧
      s'.pollView = u'.pollView ∧ s'.unread = s.advanceTail.unread := by
  have hsame : (s.advanceTail.receive s.oldest).map State.pollView =
      (u.receive s.oldest).map State.pollView := by
    rw [← receive_pollView, ← receive_pollView, ← hview]
    rfl
  obtain ⟨hempty, -⟩ | ⟨v, s', -, hv, hr, e⟩ | ⟨v, code, -, hv, hr, e⟩ := poll_cases s
  · exact absurd hempty hne
  · obtain rfl : v = s.oldest := hv
    have hpoll : exec .poll s = .next (s'.giveBack (.interval (some s.oldest))) := by
      rw [exec, execPoll, e]
    rw [hr] at hsame
    cases hu : u.receive s.oldest with
    | ok u' =>
      rw [hu] at hsame
      refine ⟨_, u', hpoll, exec_rxstep_of_receive hu, Except.ok.inj hsame, ?_⟩
      rw [receive_frame hr]
      rfl
    | error code => rw [hu] at hsame; cases hsame
  · obtain rfl : v = s.oldest := hv
    have hpoll : exec .poll s = .next (s.advanceTail.raise code (encode .poll)) := by
      rw [exec, execPoll, e]
    rw [hr] at hsame
    cases hu : u.receive s.oldest with
    | ok u' => rw [hu] at hsame; cases hsame
    | error code' => exact ⟨_, _, hpoll, exec_rxstep_of_raise hu, hview, rfl⟩

/-- As many POLLs as there are unread entries leave none, and emit what RXSTEP emits of them (R169). -/
theorem runInstrs_polls {n : Nat} (hocc : s.occupancy = n) (hview : s.pollView = u.pollView)
    (hrun : runInstrs (s.unread.map fun e => .rxstep (e.zeroExtend 32)) u = .next t) :
    ∃ s', runInstrs (List.replicate n .poll) s = .next s' ∧ s'.head = s'.tail ∧ s'.trace = t.trace := by
  induction n generalizing s u with
  | zero =>
    rw [unread_eq_nil hocc] at hrun
    cases hrun
    have htrace := congrArg State.trace hview
    exact ⟨s, rfl, (occupancy_eq_zero_iff s).mp hocc, htrace⟩
  | succ n ih =>
    have hne : s.head ≠ s.tail := mt (occupancy_eq_zero_iff s).mpr (by omega)
    obtain ⟨s', u', hpoll, hrx, hview', hunread⟩ := exec_poll_of_rxstep hne hview
    have hocc' : s'.occupancy = n := by
      have := occupancy_advanceTail hne
      rw [← unread_length, hunread, unread_length]
      omega
    rw [unread_of_nonempty hne, ← hunread, List.map_cons] at hrun
    obtain ⟨s'', hpolls, hends⟩ := ih hocc' hview' ((runInstrs_cons hrx).symm.trans hrun)
    exact ⟨s'', (runInstrs_cons hpoll).trans hpolls, hends⟩

/-- The captured intervals of a transmission are received as its message (R172, R208). -/
theorem runInstrs_captured {period : Nat} (hperiod : 850 ≤ period ∧ period ≤ 1166) (c : PayloadClass)
    (value : BitVec 32) (s : State) :
    ∃ t, runInstrs (((List.range (dataBits c + 3)).map fun j => captured period (playbackEntry c value j)).map
        fun e => .rxstep (e.zeroExtend 32)) s = .next t ∧
      t.trace = s.trace ++ [.frame (lenOf c) (BitVec.ofNat 32 (value.toNat % 2 ^ dataBits c))] := by
  have hbits (bs : List Bool) :
      List.Forall₂ CarriesBit (bs.map fun b => (captured period (symbolTicks b)).zeroExtend 32) bs := by
    simp only [List.forall₂_map_left_iff, List.forall₂_same]
    exact fun b _ => captured_carriesBit hperiod b
  obtain ⟨t, hrun, hends⟩ := runInstrs_frame (s := s.startMarker) (c := c) (by simp) rfl rfl
    (captured_carriesBit hperiod _) (hbits (bitsDown value (dataBits c)))
    (captured_carriesBit hperiod (checksumBit c value))
  refine ⟨t, ?_, ?_⟩
  · have hentries : ((List.range (dataBits c + 3)).map fun j => captured period (playbackEntry c value j)) =
        (startTicks :: (messageBits c value).map symbolTicks).map (captured period) := by
      rw [← map_playbackEntry, List.map_map]
      rfl
    rw [hentries, List.map_cons, List.map_cons, runInstrs_cons (exec_rxstep_start (captured_start hperiod) s),
      ← hrun]
    simp [messageBits, Function.comp_def]
  · have hparity : foldParity value s.startMarker.checksum (dataBits c) = checksumBit c value := rfl
    rw [hends.trace, if_pos hparity, startMarker_trace]

end

/-- Settles O53: the edges leave the captured intervals unread, and the POLLs receive them. -/
theorem loopbackRoundTrip : Obligations.LoopbackRoundTrip := by
  intro c value base s hrange hempty hgap
  have hperiod := (tickPeriodInRange_iff s.params).mp hrange
  have hgap' : 20000 ≤ elapsed (outTime c value base s.params.tTick 0) s.prevTs := by
    rw [outTime, loadTick, Nat.one_mul]
    exact hgap
  obtain ⟨r, hedges, -, htrace, hunread⟩ := runInstrs_outEdges hperiod hempty hgap' le_rfl
  have hocc : r.occupancy = dataBits c + 3 := by
    rw [← unread_length, hunread, List.length_map, List.length_range]
  obtain ⟨u, hrun, hframe⟩ := runInstrs_captured hperiod c value r
  rw [← hunread] at hrun
  obtain ⟨t, hpolls, hdone, hsame⟩ := runInstrs_polls hocc rfl hrun
  exact ⟨t, (runInstrs_append hedges).trans hpolls, hdone, by rw [hsame, hframe, htrace]⟩

end Sys2Proof.Machine

/-!
### Status and reset (spec/43_control.md)
-/

namespace Sys2Proof.Machine

@[simp] theorem flagBit_getElem_zero (b : Bool) : (flagBit b)[0] = b := by
  cases b <;> rfl

/-- The status word's bits: BUSY, OUT, RXP, and the reserved ones (R240). -/
theorem getLsbD_statusWord (s : State) (k : Nat) :
    s.statusWord.getLsbD k =
      if k = 0 then s.timerEnabled
      else if k = 1 then s.outActive
      else if k = 2 then s.rxPending
      else false := by
  -- At the width `1 + 1 + 1` of the concatenation, where the library's lemma on its bits applies.
  have hword : s.statusWord =
      (flagBit s.rxPending ++ flagBit s.outActive ++ flagBit s.timerEnabled).setWidth 32 := rfl
  rw [hword, BitVec.getLsbD_setWidth, BitVec.getLsbD_append, BitVec.getLsbD_append]
  match k with
  | 0 => simp
  | 1 => simp
  | 2 => simp
  | k + 3 => simp

theorem rxPending_eq_decide (s : State) : s.rxPending = decide (s.head ≠ s.tail) := by
  rw [Bool.eq_iff_iff, State.rxPending, bne_iff_ne, decide_eq_true_iff]

/-- Settles O55: STATUS emits and gives back the status word, whose bits `getLsbD_statusWord` names. -/
theorem statusGivesFlags : Obligations.StatusGivesFlags := by
  intro s
  refine ⟨s.statusWord, rfl, ?busy, ?out, ?rxp, ?reserved⟩
  case busy => exact getLsbD_statusWord s 0
  case out => exact getLsbD_statusWord s 1
  case rxp => exact (getLsbD_statusWord s 2).trans (rxPending_eq_decide s)
  case reserved =>
    intro k hk
    rw [getLsbD_statusWord, if_neg (by omega), if_neg (by omega), if_neg (by omega)]

/-- RESET's only event is the fall of an active line (R241). -/
theorem execReset_trace {s t : State} (h : execReset s = .next t) :
    t.trace = s.trace ++ (if s.outActive then [.out false] else []) := by
  cases h
  refine (drive_trace s false).trans ?_
  cases s.outActive <;> rfl

/-- Settles O57: `execReset_frame` says what RESET clears and keeps, `execReset_trace` what it emits. -/
theorem resetGivesResetState : Obligations.ResetGivesResetState := by
  intro s
  have hnext : execReset s = .next (s.drive false).resetRegisters := rfl
  refine ⟨_, hnext, ?_⟩
  rw [← execReset_trace hnext]
  exact execReset_frame hnext

end Sys2Proof.Machine

/-!
### Steps, stops and fault records (spec/60_exceptions.md R261 to R269, R277)

`exec_next_or_stopped` says which operation can be without a next state, and `poll_fault_cases` when a poll raises:
the two stops, the enabled agents and the recorded faults are read off them.
-/

namespace Sys2Proof.Machine

/-- The word of an operation belongs to the agent that issues the operation (R274, R277). -/
theorem wordAgent_encode (i : Instr) : wordAgent (encode i) = some i.operation.agent := by
  obtain ⟨hop, -⟩ := encoded_statement i
  rw [wordAgent, hop]
  rfl

/-- A word waits only behind a DRAIN of its own agent (R277). -/
theorem not_mustWait {s : State} {w : OpWord} (h : s.draining = true → wordAgent w ≠ some .main) :
    ¬s.mustWait w = true := by
  rw [State.mustWait, Bool.and_eq_true, beq_iff_eq]
  exact fun ⟨hd, hmain⟩ => h hd hmain

/-- Settles O7: the word is `encode i`, so it does not wait, and its turn runs `i`. -/
theorem stepRunsDecodedOperation : Obligations.StepRunsDecodedOperation := by
  intro s w rest i hf hsched hdecode hagent
  have hword : wordAgent w = some i.operation.agent := by
    rw [← encodeOfDecoded w i hdecode, wordAgent_encode]
  have hwait : ¬s.mustWait w = true := not_mustWait fun hd => by
    rw [hword]
    exact fun hmain => hagent hd (Option.some.inj hmain)
  rw [step, nextTurn_of_clean hf, hsched]
  dsimp only
  rw [if_neg hwait, hdecode]

/-- Settles O8: the word does not wait, and its turn is the refusal. -/
theorem refusedWordSetsMark : Obligations.RefusedWordSetsMark := by
  intro s w rest c hf hsched hdecode hagent
  rw [step, nextTurn_of_clean hf, hsched]
  dsimp only
  rw [if_neg (not_mustWait hagent), hdecode]
  rfl

/-- Every operation has a next state but TICK on a stopped timer (R204, R261). -/
theorem exec_next_or_stopped (i : Instr) (s : State) :
    (∃ t, exec i s = .next t) ∨
    (i = .tick ∧ s.timerEnabled = false ∧ exec i s = .fault .timerStopped) := by
  cases i with
  | pop =>
    left
    obtain ⟨-, e⟩ | ⟨-, e⟩ := pop_cases s <;> exact ⟨_, by rw [exec, execPop, e]⟩
  | rxstep v =>
    left
    cases e : s.receive v <;> exact ⟨_, by rw [exec, execRxstep, e]⟩
  | poll => left; cases e : s.poll <;> exact ⟨_, by rw [exec, execPoll, e]⟩
  | drain => left; cases e : s.poll <;> exact ⟨_, by rw [exec, execDrain, e]⟩
  | tick =>
    cases htimer : s.timerEnabled with
    | true => exact .inl ⟨_, exec_tick htimer⟩
    | false => exact .inr ⟨rfl, rfl, stoppedTimerHasNoTick s htimer⟩
  | edge | send2 | send4 | status | reset => exact .inl ⟨_, rfl⟩

/-- Only TICK is the timer agent's (R277). -/
theorem agent_eq_timer_iff {i : Instr} : i.operation.agent = .timer ↔ i = .tick := by
  cases i <;> simp [Instr.operation, Operation.agent]

/-- An operation of an agent other than the timer always has a next state, the timer's while it is enabled
(R204, R277). -/
theorem exec_hasNext_iff (i : Instr) (s : State) :
    (∃ t, exec i s = .next t) ↔ (i.operation.agent = .timer → s.timerEnabled = true) := by
  rw [agent_eq_timer_iff]
  constructor
  · rintro ⟨t, h⟩ rfl
    exact timerEnabled_of_execTick h
  · intro hon
    obtain h | ⟨htick, hoff, -⟩ := exec_next_or_stopped i s
    · exact h
    · exact absurd ((hon htick).symm.trans hoff) (by decide)

/-- A turn that runs an operation other than a DRAIN in progress issues the operation's word. -/
theorem schedule_of_run {i : Instr} {s u : State} (h : s.nextTurn = .run i u) (hi : i ≠ .drain) :
    ∃ rest, s.schedule = .issue (encode i) :: rest := by
  have hresume (u' : State) : u'.resumeDrain ≠ .run i u := by
    obtain ⟨-, e⟩ | ⟨-, e⟩ := resumeDrain_cases u' <;> rw [e]
    · exact fun hrun => by cases hrun; exact hi rfl
    · exact nofun
  unfold State.nextTurn at h
  split at h
  · cases h
  split at h
  · exact absurd h (hresume _)
  · exact absurd h (hresume _)
  · next w rest hsched =>
    split at h
    · cases h; exact absurd rfl hi
    · cases hdecode : decode w with
      | ok j =>
        rw [hdecode] at h
        cases h
        exact ⟨rest, by rw [hsched, encodeOfDecoded w i hdecode]⟩
      | error c => rw [hdecode] at h; cases h

/-- Settles O12: of the turns only a fault's stops the block, and of the operations only a stopped timer's TICK. -/
theorem onlyTwoStops : Obligations.OnlyTwoStops := by
  intro s
  obtain ⟨hf, -⟩ | ⟨-, sch, e⟩ | ⟨hf, i, sch, e⟩ | ⟨-, c, sch, e⟩ := nextTurn_cases s
  · exact .inr (.inl ⟨hf, faultedBlockHasNoStep s hf⟩)
  · exact .inl ⟨_, by rw [step, e]⟩
  · have hstep : step s = exec i { s with schedule := sch } := by rw [step, e]
    obtain ⟨t, ht⟩ | ⟨rfl, hoff, hstop⟩ := exec_next_or_stopped i { s with schedule := sch }
    · exact .inl ⟨t, hstep.trans ht⟩
    · exact .inr (.inr ⟨hf, hoff, schedule_of_run e nofun, hstep.trans hstop⟩)
  · exact .inl ⟨_, by rw [step, e]⟩

/-- Settles O13: on a block without a fault the step is the operation's, and `exec_hasNext_iff` says when that has
a next state. -/
theorem enabledAgentsHaveSteps : Obligations.EnabledAgentsHaveSteps := by
  intro s i rest hsched hd
  have hstep (hf : s.fault = none) : step s = exec i { s with schedule := rest } :=
    stepRunsDecodedOperation s _ rest i hf hsched (decodeOfEncode i) fun hon =>
      absurd (hon.symm.trans hd) (by decide)
  constructor
  · rintro ⟨t, h⟩
    obtain ⟨hf, -⟩ := step_next_cases h
    rw [hstep hf] at h
    exact ⟨hf, (exec_hasNext_iff i { s with schedule := rest }).mp ⟨t, h⟩⟩
  · rintro ⟨hf, hon⟩
    rw [hstep hf]
    exact (exec_hasNext_iff i { s with schedule := rest }).mpr hon

section

variable {s t : State} {v : Interval}

theorem exec_rxstep_of_wraps (h : s.Wraps v) :
    exec (.rxstep v) s = .next (s.raise .rxCountWrap (encode (.rxstep v))) :=
  exec_rxstep_of_raise (receive_of_wraps h)

theorem send_of_busy {c : PayloadClass} {value : BitVec 32} {w : OpWord} (hon : s.timerEnabled = true) :
    s.send c value w = s.raise .sendWhileBusy w := if_pos hon

/-- A poll keeps the fault record, or raises at the counter's end with `tail` advanced (R169, R264). -/
theorem poll_fault_cases (s : State) :
    s.poll = .empty ∨ (∃ v u, u.fault = s.fault ∧ s.poll = .took v u) ∨
    (s.bitsExpected ≠ 0 ∧ s.bitsReceived.toNat = 2 ^ 32 - 1 ∧ s.poll = .raised .rxCountWrap s.advanceTail) := by
  by_cases hempty : s.head = s.tail
  · exact .inl (poll_of_empty hempty)
  by_cases hw : s.Wraps s.oldest
  · have ⟨hexp, hend, _⟩ := hw
    exact .inr (.inr ⟨hexp, hend, poll_of_wraps hempty hw⟩)
  · obtain ⟨u, hr, hpoll⟩ := poll_of_not_wraps hempty hw
    have hkept : u.fault = s.fault := by rw [receive_frame hr]; rfl
    exact .inr (.inl ⟨_, u, hkept, hpoll⟩)

/-- What POLL records (R169, R264). -/
theorem exec_poll_fault (h : exec .poll s = .next t) (hne : t.fault ≠ s.fault) :
    s.bitsExpected ≠ 0 ∧ s.bitsReceived.toNat = 2 ^ 32 - 1 ∧
      t = s.advanceTail.raise .rxCountWrap (encode .poll) := by
  rw [exec, execPoll] at h
  obtain e | ⟨v, u, hu, e⟩ | ⟨hexp, hend, e⟩ := poll_fault_cases s <;> rw [e] at h <;> cases h
  · exact absurd rfl hne
  · exact absurd hu hne
  · exact ⟨hexp, hend, rfl⟩

/-- What an iteration of DRAIN records; the raise ends the DRAIN (R170, R264). -/
theorem exec_drain_fault (h : exec .drain s = .next t) (hne : t.fault ≠ s.fault) :
    s.bitsExpected ≠ 0 ∧ s.bitsReceived.toNat = 2 ^ 32 - 1 ∧
      t = ({ s.advanceTail with draining := false } : State).raise .rxCountWrap (encode .drain) := by
  rw [exec, execDrain] at h
  obtain e | ⟨v, u, hu, e⟩ | ⟨hexp, hend, e⟩ := poll_fault_cases s <;> rw [e] at h <;> cases h
  · exact absurd rfl hne
  · exact absurd hu hne
  · exact ⟨hexp, hend, rfl⟩

/-- What RXSTEP records (R264). -/
theorem exec_rxstep_fault (h : exec (.rxstep v) s = .next t) (hne : t.fault ≠ s.fault) :
    s.Wraps v ∧ t = s.raise .rxCountWrap (encode (.rxstep v)) := by
  by_cases hw : s.Wraps v
  · rw [exec_rxstep_of_wraps hw] at h
    cases h
    exact ⟨hw, rfl⟩
  · obtain ⟨u, hr⟩ := receive_of_not_wraps hw
    rw [exec_rxstep_of_receive hr] at h
    cases h
    exact absurd (congrArg State.fault (receive_frame hr)) hne

/-- What SEND records (R263). -/
theorem exec_sendInstr_fault {c : PayloadClass} {value : BitVec 32} (h : exec (sendInstr c value) s = .next t)
    (hne : t.fault ≠ s.fault) :
    s.timerEnabled = true ∧ t = s.raise .sendWhileBusy (encode (sendInstr c value)) := by
  rw [exec_sendInstr] at h
  obtain ⟨hon, e⟩ | ⟨-, e⟩ := send_cases c value (encode (sendInstr c value)) s <;> rw [e] at h <;> cases h
  · exact ⟨hon, rfl⟩
  · exact absurd rfl hne

end

/-- Settles O14: SEND, RXSTEP, POLL and DRAIN have one way each to record a fault, and no other operation writes
the record. -/
theorem faultsAreRecorded : Obligations.FaultsAreRecorded := by
  intro i s t h hne
  cases i with
  | edge ts => exact absurd (congrArg State.fault (execEdge_frame h)) hne
  | pop => exact absurd (congrArg State.fault (execPop_frame h)) hne
  | tick => exact absurd (congrArg State.fault (execTick_frame h)) hne
  | status => exact absurd (congrArg State.fault (execStatus_frame h)) hne
  | reset => exact absurd (congrArg State.fault (execReset_frame h)) hne
  | send2 value =>
    obtain ⟨hon, rfl⟩ := exec_sendInstr_fault (c := .two) h hne
    exact .inl ⟨rfl, hon, rfl⟩
  | send4 value =>
    obtain ⟨hon, rfl⟩ := exec_sendInstr_fault (c := .four) h hne
    exact .inl ⟨rfl, hon, rfl⟩
  | rxstep v =>
    obtain ⟨⟨hexp, hend, -⟩, rfl⟩ := exec_rxstep_fault h hne
    exact .inr ⟨rfl, hexp, hend, .inl ⟨rfl, rfl, rfl⟩⟩
  | poll =>
    obtain ⟨hexp, hend, rfl⟩ := exec_poll_fault h hne
    exact .inr ⟨rfl, hexp, hend, .inr (.inl ⟨rfl, nextIndex_eq _, rfl⟩)⟩
  | drain =>
    obtain ⟨hexp, hend, rfl⟩ := exec_drain_fault h hne
    exact .inr ⟨rfl, hexp, hend, .inr (.inr ⟨rfl, nextIndex_eq _, rfl⟩)⟩

/-- The number of RXSTEP's word (R99, R106). -/
theorem encode_rxstep_toNat (v : Interval) : (encode (.rxstep v)).toNat = 3 * 2 ^ 56 + v.toNat :=
  toNat_wordOf 3 0 v

/-- Settles O34: the interval wraps, and `encode_rxstep_toNat` is the number of its word. -/
theorem counterWrapFaults : Obligations.CounterWrapFaults := by
  intro v s hband hexp hend
  rw [exec_rxstep_of_wraps ⟨hexp, hend, hband⟩, ← encode_rxstep_toNat, BitVec.ofNat_toNat,
    BitVec.setWidth_eq]
  rfl

/-- Settles O44: SEND on an enabled timer raises, and `encode_sendInstr_toNat` is the number of its word. -/
theorem sendWhileBusyFaults : Obligations.SendWhileBusyFaults := by
  intro c value s hon
  rw [exec_sendInstr, send_of_busy hon, ← encode_sendInstr_toNat, BitVec.ofNat_toNat, BitVec.setWidth_eq]
  rfl

end Sys2Proof.Machine

/-!
### Runs that are never over (spec/70_reset_and_hazards.md R315)

`run_keeps` is the induction over a run's steps. A recorded fault stays, since it leaves the block without a step;
with no word left only a DRAIN can still run, and it writes neither the schedule nor the timer.
-/

namespace Sys2Proof.Machine

/-- What every step keeps holds at the end of a run. -/
theorem run_keeps {P : State → Prop} (hstep : ∀ s t, P s → step s = .next t → P t) {n : Nat} {s t : State}
    (hp : P s) (h : Host.Core.run Sys2Proof.core n s = .next t) : P t := by
  induction n generalizing s with
  | zero => cases h; exact hp
  | succ n ih =>
    obtain ⟨u, e⟩ | ⟨-, e⟩ | ⟨-, -, -, e⟩ := onlyTwoStops s
    · rw [run_of_next n e] at h
      exact ih (hstep s u hp e) h
    · rw [run_of_fault n e] at h
      cases h
    · rw [run_of_fault n e] at h
      cases h

/-- A run that ends with its words used up and a transmission pending (R315). -/
def State.PendingAtEnd (s : State) : Prop := s.schedule = [] ∧ s.timerEnabled = true

/-- With no word left a step holds the block, or runs the next iteration of a DRAIN in progress (R170, R281). -/
theorem step_next_of_no_words {s t : State} (hs : s.schedule = []) (h : step s = .next t) :
    t = s ∨ execDrain s = .next t := by
  obtain ⟨hf, -⟩ := step_next_cases h
  cases hd : s.draining with
  | false =>
    rw [blockHoldsStateBetweenOperations s hf ⟨hs, hd⟩] at h
    cases h
    exact .inl rfl
  | true =>
    obtain ⟨goesOn, -⟩ := drainGoesOn s hf hd
    rw [goesOn hs] at h
    exact .inr h

/-- No word is left to end the transmission: a DRAIN does not write the timer (R53). -/
theorem step_keeps_pendingAtEnd {s t : State} (hs : s.PendingAtEnd) (h : step s = .next t) : t.PendingAtEnd := by
  obtain ⟨hsched, htimer⟩ := hs
  obtain rfl | hdrain := step_next_of_no_words hsched h
  · exact ⟨hsched, htimer⟩
  · rw [execDrain_frame hdrain]
    exact ⟨hsched, htimer⟩

/-- A recorded fault is never cleared: the block has no step that could (R46). -/
theorem step_keeps_fault {s t : State} (hf : s.fault ≠ none) (h : step s = .next t) : t.fault ≠ none := by
  rw [faultedBlockHasNoStep s hf] at h
  cases h

/-- Settles O60: the fault, or the pending transmission, is kept along the run, and a run that is over has neither. -/
theorem faultedOrPendingRunIsNeverOver : Obligations.FaultedOrPendingRunIsNeverOver := by
  intro n s t h
  refine ⟨fun hf hover => ?_, fun hsched htimer => ?_⟩
  · obtain ⟨-, hclean, -⟩ := hover
    exact run_keeps (P := fun u => u.fault ≠ none) (fun _ _ => step_keeps_fault) hf h hclean
  · obtain ⟨-, hon⟩ := run_keeps (P := State.PendingAtEnd) (fun _ _ => step_keeps_pendingAtEnd) ⟨hsched, htimer⟩ h
    refine ⟨hon, fun ⟨_, _, hoff⟩ => ?_⟩
    exact absurd (hon.symm.trans hoff) (by decide)

end Sys2Proof.Machine
